-- ==== Sys2Proof/Word.lean ====
section
/-!
DEFINITION. The machine's two word types (00_scope.md R5, R10): 8-bit registers and memory bytes,
16-bit addresses and PC. Arithmetic on them wraps, which is the spec's `u8` and `u16` (R9).
-/

namespace Sys2Proof

/-- A byte: A, X, Y, SP, P, every memory cell (R5). -/
abbrev Byte := BitVec 8

/-- A 16-bit value: PC, every CPU address (R5). -/
abbrev Word := BitVec 16

end Sys2Proof
end

