-- ==== Sys2Proof/Machine/Bits.lean ====
section
/-!
DEFINITION. Bit-field, extension and byte-order helpers (00_scope.md R9).
-/

namespace Sys2Proof.Machine

open Sys2Proof

/-- `hi:lo`, the 16-bit value of two bytes (R9). -/
def word16 (hi lo : Byte) : Word := hi ++ lo

/-- `w[15:8]`. -/
def hiByte (w : Word) : Byte := w.extractLsb' 8 8

/-- `w[7:0]`. -/
def loByte (w : Word) : Byte := w.extractLsb' 0 8

/-- `zext_16` (R9). -/
def zext16 (b : Byte) : Word := b.setWidth 16

/-- `sext_16`, the two's-complement sign extension (R9). -/
def sext16 (b : Byte) : Word := b.signExtend 16

/-- `b` with bit `i` made `on` and every other bit kept. -/
def putBit (b : Byte) (i : Nat) (on : Bool) : Byte :=
  if on then b ||| (1#8 <<< i) else b &&& ~~~(1#8 <<< i)

end Sys2Proof.Machine
end

