-- ==== Sys2Proof/Machine/Flags.lean ====
section
/-!
DEFINITION. The status byte P (10_state.md R26) and every flag computation of the spec: SetZN
(40_pipeline_addressing.md R162), add and subtract (42_arithmetic_logic.md R190, R191), compare (R196 to
R198), BIT (R195), the shifts (43_shift_rotate.md R220 to R223) and the status pushes (45 R261).
-/

namespace Sys2Proof.Machine

open Sys2Proof

/-- Bit positions in P (R26). -/
abbrev bitC : Nat := 0
abbrev bitZ : Nat := 1
abbrev bitI : Nat := 2
abbrev bitD : Nat := 3
abbrev bitB : Nat := 4
abbrev bitU : Nat := 5
abbrev bitV : Nat := 6
abbrev bitN : Nat := 7

/-- Reads a flag of a status byte. -/
def flag (p : Byte) (i : Nat) : Bool := p.getLsbD i

/-- The carry as a number, for sums. -/
def carryIn (p : Byte) : Nat := (flag p bitC).toNat

/-- `SetZN(v)` on a status byte (R162). -/
def setZN (p v : Byte) : Byte := putBit (putBit p bitZ (v == 0)) bitN (v.getLsbD 7)

/-- A result byte with the status byte that goes with it. -/
structure Alu where
  result : Byte
  status : Byte
  deriving DecidableEq, Repr

/-- ADC of `a` and `m` under status `p` (R190). `t` is the exact sum, at most 511. -/
def adc (p a m : Byte) : Alu :=
  let t := a.toNat + m.toNat + carryIn p
  let r := BitVec.ofNat 8 t
  let p := putBit p bitC (decide (t > 255))
  let p := putBit p bitZ (r == 0)
  let p := putBit p bitV ((~~~(a ^^^ m) &&& (a ^^^ r)) &&& 0x80 != 0)
  let p := putBit p bitN (r &&& 0x80 != 0)
  { result := r, status := p }

/-- SBC of `a` and the operand byte `f` under status `p` (R191). `m` is the complement of the operand. -/
def sbc (p a f : Byte) : Alu :=
  let m := f ^^^ 0xFF
  let t := a.toNat + m.toNat + carryIn p
  let r := BitVec.ofNat 8 t
  let p := putBit p bitC (decide (t > 255))
  let p := putBit p bitZ (r == 0)
  let p := putBit p bitV ((r ^^^ a) &&& (r ^^^ m) &&& 0x80 != 0)
  let p := putBit p bitN (r &&& 0x80 != 0)
  { result := r, status := p }

/-- The status byte after comparing register `r` with `m` (R196, R197, R198). -/
def compareStatus (p r m : Byte) : Byte := setZN (putBit p bitC (decide (r.toNat ≥ m.toNat))) (r - m)

/-- The status byte after BIT of `a` and `m` (R195). -/
def bitStatus (p a m : Byte) : Byte :=
  putBit (putBit (putBit p bitZ (a &&& m == 0)) bitN (m.getLsbD 7)) bitV (m.getLsbD 6)

/-- ASL (R220): `t` is the 9-bit shift. -/
def asl (p m : Byte) : Alu :=
  let t : BitVec 9 := m.setWidth 9 <<< 1
  let r := t.setWidth 8
  { result := r, status := setZN (putBit p bitC (t.getLsbD 8)) r }

/-- LSR (R221). -/
def lsr (p m : Byte) : Alu :=
  let r := m >>> 1
  { result := r, status := setZN (putBit p bitC (m.getLsbD 0)) r }

/-- ROL (R222): the old carry enters bit 0. -/
def rol (p m : Byte) : Alu :=
  let t : BitVec 9 := (m.setWidth 9 <<< 1) ||| (BitVec.ofBool (flag p bitC)).setWidth 9
  let r := t.setWidth 8
  { result := r, status := setZN (putBit p bitC (t.getLsbD 8)) r }

/-- ROR (R223): the old carry enters bit 7. -/
def ror (p m : Byte) : Alu :=
  let r := ((BitVec.ofBool (flag p bitC)).setWidth 8 <<< 7) ||| (m >>> 1)
  { result := r, status := setZN (putBit p bitC (m.getLsbD 0)) r }

/-- The copy of P that PHP and BRK push: B = 1, U = 1 (R261, R242). -/
def pushedByInstruction (p : Byte) : Byte := p ||| 0x10 ||| 0x20

/-- The live status irq() and nmi() make before they push it: B = 0, U = 1 (R302, R303). -/
def pushedByInterrupt (p : Byte) : Byte := putBit (putBit p bitB false) bitU true

end Sys2Proof.Machine
end

