-- ==== Sys2Proof/Config.lean ====
section
/-!
DEFINITION. What is fixed for one machine: the closed enumerations of tags (00_scope.md R15, R16),
the operand forms that go with the mode tags, the named parameters (R6), and the free values.
-/

namespace Sys2Proof

/-- The twelve addressing-mode tags (R15). -/
inductive Mode where
  | imp | imm | zp0 | zpx | zpy | rel | abs | abx | aby | ind | izx | izy
  deriving DecidableEq, Repr

/-- The operation tags: the 56 mnemonics of R16 (BIT included, D9) and INVALID. -/
inductive Op where
  | lda | ldx | ldy | sta | stx | sty | adc | sbc | and | eor | ora | bit | cmp | cpx | cpy |
  inc | dec | inx | iny | dex | dey | asl | lsr | rol | ror | bcc | bcs | beq | bne | bmi | bpl
  | bvc | bvs | jmp | jsr | rts | brk | rti | pha | php | pla | plp | clc | cld | cli | clv |
  sec | sed | sei | tax | tay | tsx | txa | txs | tya | nop | invalid
  deriving DecidableEq, Repr

/-- An operand form: a mode tag with the operand bytes of that mode (30_encoding.md R120-R125).
A 16-bit operand is held assembled; its low byte comes first in memory (R125). -/
inductive Operand where
  | imp
  | imm (value : Byte)
  | zp0 (zp : Byte)
  | zpx (zp : Byte)
  | zpy (zp : Byte)
  | rel (offset : Byte)
  | abs (addr : Word)
  | abx (addr : Word)
  | aby (addr : Word)
  | ind (ptr : Word)
  | izx (zp : Byte)
  | izy (zp : Byte)
  deriving DecidableEq, Repr

/-- The mode tag of an operand form (R120). -/
def Operand.mode : Operand → Mode
  | .imp => .imp | .imm _ => .imm | .zp0 _ => .zp0 | .zpx _ => .zpx | .zpy _ => .zpy
  | .rel _ => .rel | .abs _ => .abs | .abx _ => .abx | .aby _ => .aby | .ind _ => .ind
  | .izx _ => .izx | .izy _ => .izy

/-- The named parameters of R6 that are numbers or switches. They are arguments of the machine: held
in the state, changed by nothing, so that a statement about every state is one about every value of
them. DESIGN CHOICE (safe), log 7. -/
structure Params where
  /-- P_NMI_VECTOR: the address of the low byte of the vector nmi() uses (D50). -/
  nmiVector : Word
  /-- P_INVALID_CYCLES, as the entries that differ from the default of R127 (D7); the first entry
  for an opcode byte counts. -/
  invalidCycles : List (Byte × Nat)
  /-- P_FALLBACK_WRITE_ALIASES_RAM (D14). -/
  fallbackAliasesRam : Bool
  deriving DecidableEq, Repr

/-- The defaults the spec adopts (R6). -/
def Params.default : Params :=
  { nmiVector := 0xFFFE, invalidCycles := [], fallbackAliasesRam := false }

/-- The range of the base counts of the table (40_pipeline_addressing.md R165: at least 2;
10_state.md R40: the largest is 8), asked of the INVALID counts a parameter puts in. Log 8. -/
def Params.ok (p : Params) : Bool := p.invalidCycles.all fun e => 2 ≤ e.2 && e.2 ≤ 8

/-- FREE VALUE: the byte a PPU read of 0x0000-0x1FFF gives while no cartridge is inserted. The spec
gives the PPU its pattern memory only through a cartridge (20_memory.md R46, R97) and states no value
without one. DESIGN CHOICE (safe), log 5. -/
opaque Config.noCartridgeChr : Nat → Byte

/-- FREE VALUE: which mirroring the PPU's name tables have while no cartridge is inserted
(`true`: vertical). The mirroring is the cartridge's (R102). DESIGN CHOICE (safe), log 5. -/
opaque Config.noCartridgeVertical : Bool

end Sys2Proof
end

