-- ==== Sys2Proof/Syntax.lean ====
section
/-!
DEFINITION. The instructions. One constructor per operation of the opcode table (30_encoding.md R126,
R127); an operation with several rows carries its operand form, so a row of the table is a
constructor with a form. DESIGN CHOICE (safe), log 1.
-/

namespace Sys2Proof

/-- An instruction with its operand (00_scope.md R16). -/
inductive Instr where
  /-- LDA: load the accumulator (R180). -/
  | lda (o : Operand)
  /-- LDX: load X (R181). -/
  | ldx (o : Operand)
  /-- LDY: load Y (R182). -/
  | ldy (o : Operand)
  /-- STA: store the accumulator (R183). -/
  | sta (o : Operand)
  /-- STX: store X (R184). -/
  | stx (o : Operand)
  /-- STY: store Y (R185). -/
  | sty (o : Operand)
  /-- ADC: add with carry (R190). -/
  | adc (o : Operand)
  /-- SBC: subtract with borrow (R191). -/
  | sbc (o : Operand)
  /-- AND: bitwise and into A (R192). -/
  | and (o : Operand)
  /-- EOR: bitwise exclusive-or into A (R193). -/
  | eor (o : Operand)
  /-- ORA: bitwise or into A (R194). -/
  | ora (o : Operand)
  /-- BIT: test bits (R195). -/
  | bit (o : Operand)
  /-- CMP: compare with A (R196). -/
  | cmp (o : Operand)
  /-- CPX: compare with X (R197). -/
  | cpx (o : Operand)
  /-- CPY: compare with Y (R198). -/
  | cpy (o : Operand)
  /-- INC: increment memory (R199). -/
  | inc (o : Operand)
  /-- DEC: decrement memory (R200). -/
  | dec (o : Operand)
  /-- INX: increment X (R201). -/
  | inx
  /-- INY: increment Y (R202). -/
  | iny
  /-- DEX: decrement X (R203). -/
  | dex
  /-- DEY: decrement Y (R204). -/
  | dey
  /-- ASL: arithmetic shift left (R220). -/
  | asl (o : Operand)
  /-- LSR: logical shift right (R221). -/
  | lsr (o : Operand)
  /-- ROL: rotate left through carry (R222). -/
  | rol (o : Operand)
  /-- ROR: rotate right through carry (R223). -/
  | ror (o : Operand)
  /-- BCC: branch if C = 0 (R231). -/
  | bcc (rel : Byte)
  /-- BCS: branch if C = 1 (R232). -/
  | bcs (rel : Byte)
  /-- BEQ: branch if Z = 1 (R233). -/
  | beq (rel : Byte)
  /-- BNE: branch if Z = 0 (R234). -/
  | bne (rel : Byte)
  /-- BMI: branch if N = 1 (R235). -/
  | bmi (rel : Byte)
  /-- BPL: branch if N = 0 (R236). -/
  | bpl (rel : Byte)
  /-- BVC: branch if V = 0 (R237). -/
  | bvc (rel : Byte)
  /-- BVS: branch if V = 1 (R238). -/
  | bvs (rel : Byte)
  /-- JMP: jump (R239). -/
  | jmp (o : Operand)
  /-- JSR: jump to subroutine (R240). -/
  | jsr (addr : Word)
  /-- RTS: return from subroutine (R241). -/
  | rts
  /-- BRK: software interrupt (R242). The padding byte that follows the opcode is consumed and never read (D11), so it is no field. -/
  | brk
  /-- RTI: return from interrupt (R243). -/
  | rti
  /-- PHA: push A (R260). -/
  | pha
  /-- PHP: push P (R261). -/
  | php
  /-- PLA: pull A (R262). -/
  | pla
  /-- PLP: pull P (R263). -/
  | plp
  /-- CLC: C <- 0 (R264). -/
  | clc
  /-- CLD: D <- 0 (R265). -/
  | cld
  /-- CLI: I <- 0 (R266). -/
  | cli
  /-- CLV: V <- 0 (R267). -/
  | clv
  /-- SEC: C <- 1 (R268). -/
  | sec
  /-- SED: D <- 1 (R269). -/
  | sed
  /-- SEI: I <- 1 (R270). -/
  | sei
  /-- TAX: A to X (R271). -/
  | tax
  /-- TAY: A to Y (R272). -/
  | tay
  /-- TSX: SP to X (R273). -/
  | tsx
  /-- TXA: X to A (R274). -/
  | txa
  /-- TXS: X to SP (R275). -/
  | txs
  /-- TYA: Y to A (R276). -/
  | tya
  /-- NOP: no operation (R277). -/
  | nop
  /-- INVALID: the placeholder of the 105 unofficial opcode bytes, with its byte (R128, R278). -/
  | invalid (op : Byte)
  deriving DecidableEq, Repr

/-- The operation tag of an instruction (R126). -/
def Instr.op : Instr → Op
  | .lda _ => .lda
  | .ldx _ => .ldx
  | .ldy _ => .ldy
  | .sta _ => .sta
  | .stx _ => .stx
  | .sty _ => .sty
  | .adc _ => .adc
  | .sbc _ => .sbc
  | .and _ => .and
  | .eor _ => .eor
  | .ora _ => .ora
  | .bit _ => .bit
  | .cmp _ => .cmp
  | .cpx _ => .cpx
  | .cpy _ => .cpy
  | .inc _ => .inc
  | .dec _ => .dec
  | .inx => .inx
  | .iny => .iny
  | .dex => .dex
  | .dey => .dey
  | .asl _ => .asl
  | .lsr _ => .lsr
  | .rol _ => .rol
  | .ror _ => .ror
  | .bcc _ => .bcc
  | .bcs _ => .bcs
  | .beq _ => .beq
  | .bne _ => .bne
  | .bmi _ => .bmi
  | .bpl _ => .bpl
  | .bvc _ => .bvc
  | .bvs _ => .bvs
  | .jmp _ => .jmp
  | .jsr _ => .jsr
  | .rts => .rts
  | .brk => .brk
  | .rti => .rti
  | .pha => .pha
  | .php => .php
  | .pla => .pla
  | .plp => .plp
  | .clc => .clc
  | .cld => .cld
  | .cli => .cli
  | .clv => .clv
  | .sec => .sec
  | .sed => .sed
  | .sei => .sei
  | .tax => .tax
  | .tay => .tay
  | .tsx => .tsx
  | .txa => .txa
  | .txs => .txs
  | .tya => .tya
  | .nop => .nop
  | .invalid _ => .invalid

/-- The operand form of an instruction: its addressing mode and operand bytes (R120). BRK's entry has
mode IMM; its padding byte is never read and stands here as 0 (R120, D11). -/
def Instr.operand : Instr → Operand
  | .lda o => o
  | .ldx o => o
  | .ldy o => o
  | .sta o => o
  | .stx o => o
  | .sty o => o
  | .adc o => o
  | .sbc o => o
  | .and o => o
  | .eor o => o
  | .ora o => o
  | .bit o => o
  | .cmp o => o
  | .cpx o => o
  | .cpy o => o
  | .inc o => o
  | .dec o => o
  | .inx => .imp
  | .iny => .imp
  | .dex => .imp
  | .dey => .imp
  | .asl o => o
  | .lsr o => o
  | .rol o => o
  | .ror o => o
  | .bcc r => .rel r
  | .bcs r => .rel r
  | .beq r => .rel r
  | .bne r => .rel r
  | .bmi r => .rel r
  | .bpl r => .rel r
  | .bvc r => .rel r
  | .bvs r => .rel r
  | .jmp o => o
  | .jsr w => .abs w
  | .rts => .imp
  | .brk => .imm 0
  | .rti => .imp
  | .pha => .imp
  | .php => .imp
  | .pla => .imp
  | .plp => .imp
  | .clc => .imp
  | .cld => .imp
  | .cli => .imp
  | .clv => .imp
  | .sec => .imp
  | .sed => .imp
  | .sei => .imp
  | .tax => .imp
  | .tay => .imp
  | .tsx => .imp
  | .txa => .imp
  | .txs => .imp
  | .tya => .imp
  | .nop => .imp
  | .invalid _ => .imp

/-- The mode tag of an instruction (R126). -/
def Instr.mode (i : Instr) : Mode := i.operand.mode

end Sys2Proof
end

