-- ==== Sys2Proof/WellFormed.lean ====
section
/-!
DEFINITION. Which terms of `Instr` are instructions of the machine: the operand form must be one the
operation's rule lists under Encoding (41 to 45, R180-R278), and an INVALID must carry one of the 105
bytes of R128.
-/

namespace Sys2Proof

/-- The modes an operation has an opcode byte for, from the Encoding lines of R180-R278. -/
def legalModes : Op → List Mode
  | .lda => [.imm, .zp0, .zpx, .abs, .abx, .aby, .izx, .izy]
  | .ldx => [.imm, .zp0, .zpy, .abs, .aby]
  | .ldy => [.imm, .zp0, .zpx, .abs, .abx]
  | .sta => [.zp0, .zpx, .abs, .abx, .aby, .izx, .izy]
  | .stx => [.zp0, .zpy, .abs]
  | .sty => [.zp0, .zpx, .abs]
  | .adc => [.imm, .zp0, .zpx, .abs, .abx, .aby, .izx, .izy]
  | .sbc => [.imm, .zp0, .zpx, .abs, .abx, .aby, .izx, .izy]
  | .and => [.imm, .zp0, .zpx, .abs, .abx, .aby, .izx, .izy]
  | .eor => [.imm, .zp0, .zpx, .abs, .abx, .aby, .izx, .izy]
  | .ora => [.imm, .zp0, .zpx, .abs, .abx, .aby, .izx, .izy]
  | .bit => [.zp0, .abs]
  | .cmp => [.imm, .zp0, .zpx, .abs, .abx, .aby, .izx, .izy]
  | .cpx => [.imm, .zp0, .abs]
  | .cpy => [.imm, .zp0, .abs]
  | .inc => [.zp0, .zpx, .abs, .abx]
  | .dec => [.zp0, .zpx, .abs, .abx]
  | .inx => [.imp]
  | .iny => [.imp]
  | .dex => [.imp]
  | .dey => [.imp]
  | .asl => [.imp, .zp0, .zpx, .abs, .abx]
  | .lsr => [.imp, .zp0, .zpx, .abs, .abx]
  | .rol => [.imp, .zp0, .zpx, .abs, .abx]
  | .ror => [.imp, .zp0, .zpx, .abs, .abx]
  | .bcc => [.rel]
  | .bcs => [.rel]
  | .beq => [.rel]
  | .bne => [.rel]
  | .bmi => [.rel]
  | .bpl => [.rel]
  | .bvc => [.rel]
  | .bvs => [.rel]
  | .jmp => [.abs, .ind]
  | .jsr => [.abs]
  | .rts => [.imp]
  | .brk => [.imm]
  | .rti => [.imp]
  | .pha => [.imp]
  | .php => [.imp]
  | .pla => [.imp]
  | .plp => [.imp]
  | .clc => [.imp]
  | .cld => [.imp]
  | .cli => [.imp]
  | .clv => [.imp]
  | .sec => [.imp]
  | .sed => [.imp]
  | .sei => [.imp]
  | .tax => [.imp]
  | .tay => [.imp]
  | .tsx => [.imp]
  | .txa => [.imp]
  | .txs => [.imp]
  | .tya => [.imp]
  | .nop => [.imp]
  | .invalid => [.imp]

/-- The 41 INVALID bytes of R127 outside columns x3, x7, xB and xF. -/
def invalidOutsideOddColumns : List Byte :=
  [0x02, 0x04, 0x0C, 0x12, 0x14, 0x1A, 0x1C, 0x22, 0x32, 0x34, 0x3A, 0x3C, 0x42, 0x44,
    0x52, 0x54, 0x5A, 0x5C, 0x62, 0x64, 0x72, 0x74, 0x7A, 0x7C, 0x80, 0x82, 0x89, 0x92,
    0x9C, 0x9E, 0xB2, 0xC2, 0xD2, 0xD4, 0xDA, 0xDC, 0xE2, 0xF2, 0xF4, 0xFA, 0xFC]

/-- The bytes marked `inv` in R127: the whole of columns x3, x7, xB and xF, and 41 more. -/
def isInvalidOpcode (b : Byte) : Bool :=
  b &&& 3 == 3 || invalidOutsideOddColumns.contains b

/-- The operand form is one of the operation's (R180-R278). -/
def Instr.formOk (i : Instr) : Bool := (legalModes i.op).contains i.mode

/-- An INVALID carries an INVALID byte (R128). -/
def Instr.invalidOk : Instr → Bool
  | .invalid b => isInvalidOpcode b
  | .lda _ => true
  | .ldx _ => true
  | .ldy _ => true
  | .sta _ => true
  | .stx _ => true
  | .sty _ => true
  | .adc _ => true
  | .sbc _ => true
  | .and _ => true
  | .eor _ => true
  | .ora _ => true
  | .bit _ => true
  | .cmp _ => true
  | .cpx _ => true
  | .cpy _ => true
  | .inc _ => true
  | .dec _ => true
  | .inx => true
  | .iny => true
  | .dex => true
  | .dey => true
  | .asl _ => true
  | .lsr _ => true
  | .rol _ => true
  | .ror _ => true
  | .bcc _ => true
  | .bcs _ => true
  | .beq _ => true
  | .bne _ => true
  | .bmi _ => true
  | .bpl _ => true
  | .bvc _ => true
  | .bvs _ => true
  | .jmp _ => true
  | .jsr _ => true
  | .rts => true
  | .brk => true
  | .rti => true
  | .pha => true
  | .php => true
  | .pla => true
  | .plp => true
  | .clc => true
  | .cld => true
  | .cli => true
  | .clv => true
  | .sec => true
  | .sed => true
  | .sei => true
  | .tax => true
  | .tay => true
  | .tsx => true
  | .txa => true
  | .txs => true
  | .tya => true
  | .nop => true

/-- The checks together. -/
def Instr.wellFormed (i : Instr) : Bool := i.formOk && i.invalidOk

/-- `i` is an instruction of the machine. -/
abbrev Instr.WellFormed (i : Instr) : Prop := i.wellFormed = true

end Sys2Proof
end

