-- ==== Sys2Proof/Decode.lean ====
section
/-!
DEFINITION. The opcode table as 30_encoding.md R127 prints it, the decoder over it (R126, R129), and
an encoder written from the other place the spec states the opcode bytes: the Encoding lines of the
instruction rules R180-R278.
-/

namespace Sys2Proof

open Sys2Proof.Machine

/-- An opcode-table entry: operation tag, mode tag, base cycle count (R126). -/
structure Entry where
  op : Op
  mode : Mode
  base : Nat
  deriving DecidableEq, Repr

/-- Row 0x of R127. -/
def tableRow0 : List Entry :=
  [⟨.brk, .imm, 7⟩, ⟨.ora, .izx, 6⟩, ⟨.invalid, .imp, 2⟩, ⟨.invalid, .imp, 8⟩,
   ⟨.invalid, .imp, 3⟩, ⟨.ora, .zp0, 3⟩, ⟨.asl, .zp0, 5⟩, ⟨.invalid, .imp, 5⟩,
   ⟨.php, .imp, 3⟩, ⟨.ora, .imm, 2⟩, ⟨.asl, .imp, 2⟩, ⟨.invalid, .imp, 2⟩,
   ⟨.invalid, .imp, 4⟩, ⟨.ora, .abs, 4⟩, ⟨.asl, .abs, 6⟩, ⟨.invalid, .imp, 6⟩]

/-- Row 1x of R127. -/
def tableRow1 : List Entry :=
  [⟨.bpl, .rel, 2⟩, ⟨.ora, .izy, 5⟩, ⟨.invalid, .imp, 2⟩, ⟨.invalid, .imp, 8⟩,
   ⟨.invalid, .imp, 4⟩, ⟨.ora, .zpx, 4⟩, ⟨.asl, .zpx, 6⟩, ⟨.invalid, .imp, 6⟩,
   ⟨.clc, .imp, 2⟩, ⟨.ora, .aby, 4⟩, ⟨.invalid, .imp, 2⟩, ⟨.invalid, .imp, 7⟩,
   ⟨.invalid, .imp, 4⟩, ⟨.ora, .abx, 4⟩, ⟨.asl, .abx, 7⟩, ⟨.invalid, .imp, 7⟩]

/-- Row 2x of R127. -/
def tableRow2 : List Entry :=
  [⟨.jsr, .abs, 6⟩, ⟨.and, .izx, 6⟩, ⟨.invalid, .imp, 2⟩, ⟨.invalid, .imp, 8⟩,
   ⟨.bit, .zp0, 3⟩, ⟨.and, .zp0, 3⟩, ⟨.rol, .zp0, 5⟩, ⟨.invalid, .imp, 5⟩,
   ⟨.plp, .imp, 4⟩, ⟨.and, .imm, 2⟩, ⟨.rol, .imp, 2⟩, ⟨.invalid, .imp, 2⟩,
   ⟨.bit, .abs, 4⟩, ⟨.and, .abs, 4⟩, ⟨.rol, .abs, 6⟩, ⟨.invalid, .imp, 6⟩]

/-- Row 3x of R127. -/
def tableRow3 : List Entry :=
  [⟨.bmi, .rel, 2⟩, ⟨.and, .izy, 5⟩, ⟨.invalid, .imp, 2⟩, ⟨.invalid, .imp, 8⟩,
   ⟨.invalid, .imp, 4⟩, ⟨.and, .zpx, 4⟩, ⟨.rol, .zpx, 6⟩, ⟨.invalid, .imp, 6⟩,
   ⟨.sec, .imp, 2⟩, ⟨.and, .aby, 4⟩, ⟨.invalid, .imp, 2⟩, ⟨.invalid, .imp, 7⟩,
   ⟨.invalid, .imp, 4⟩, ⟨.and, .abx, 4⟩, ⟨.rol, .abx, 7⟩, ⟨.invalid, .imp, 7⟩]

/-- Row 4x of R127. -/
def tableRow4 : List Entry :=
  [⟨.rti, .imp, 6⟩, ⟨.eor, .izx, 6⟩, ⟨.invalid, .imp, 2⟩, ⟨.invalid, .imp, 8⟩,
   ⟨.invalid, .imp, 3⟩, ⟨.eor, .zp0, 3⟩, ⟨.lsr, .zp0, 5⟩, ⟨.invalid, .imp, 5⟩,
   ⟨.pha, .imp, 3⟩, ⟨.eor, .imm, 2⟩, ⟨.lsr, .imp, 2⟩, ⟨.invalid, .imp, 2⟩,
   ⟨.jmp, .abs, 3⟩, ⟨.eor, .abs, 4⟩, ⟨.lsr, .abs, 6⟩, ⟨.invalid, .imp, 6⟩]

/-- Row 5x of R127. -/
def tableRow5 : List Entry :=
  [⟨.bvc, .rel, 2⟩, ⟨.eor, .izy, 5⟩, ⟨.invalid, .imp, 2⟩, ⟨.invalid, .imp, 8⟩,
   ⟨.invalid, .imp, 4⟩, ⟨.eor, .zpx, 4⟩, ⟨.lsr, .zpx, 6⟩, ⟨.invalid, .imp, 6⟩,
   ⟨.cli, .imp, 2⟩, ⟨.eor, .aby, 4⟩, ⟨.invalid, .imp, 2⟩, ⟨.invalid, .imp, 7⟩,
   ⟨.invalid, .imp, 4⟩, ⟨.eor, .abx, 4⟩, ⟨.lsr, .abx, 7⟩, ⟨.invalid, .imp, 7⟩]

/-- Row 6x of R127. -/
def tableRow6 : List Entry :=
  [⟨.rts, .imp, 6⟩, ⟨.adc, .izx, 6⟩, ⟨.invalid, .imp, 2⟩, ⟨.invalid, .imp, 8⟩,
   ⟨.invalid, .imp, 3⟩, ⟨.adc, .zp0, 3⟩, ⟨.ror, .zp0, 5⟩, ⟨.invalid, .imp, 5⟩,
   ⟨.pla, .imp, 4⟩, ⟨.adc, .imm, 2⟩, ⟨.ror, .imp, 2⟩, ⟨.invalid, .imp, 2⟩,
   ⟨.jmp, .ind, 5⟩, ⟨.adc, .abs, 4⟩, ⟨.ror, .abs, 6⟩, ⟨.invalid, .imp, 6⟩]

/-- Row 7x of R127. -/
def tableRow7 : List Entry :=
  [⟨.bvs, .rel, 2⟩, ⟨.adc, .izy, 5⟩, ⟨.invalid, .imp, 2⟩, ⟨.invalid, .imp, 8⟩,
   ⟨.invalid, .imp, 4⟩, ⟨.adc, .zpx, 4⟩, ⟨.ror, .zpx, 6⟩, ⟨.invalid, .imp, 6⟩,
   ⟨.sei, .imp, 2⟩, ⟨.adc, .aby, 4⟩, ⟨.invalid, .imp, 2⟩, ⟨.invalid, .imp, 7⟩,
   ⟨.invalid, .imp, 4⟩, ⟨.adc, .abx, 4⟩, ⟨.ror, .abx, 7⟩, ⟨.invalid, .imp, 7⟩]

/-- Row 8x of R127. -/
def tableRow8 : List Entry :=
  [⟨.invalid, .imp, 2⟩, ⟨.sta, .izx, 6⟩, ⟨.invalid, .imp, 2⟩, ⟨.invalid, .imp, 6⟩,
   ⟨.sty, .zp0, 3⟩, ⟨.sta, .zp0, 3⟩, ⟨.stx, .zp0, 3⟩, ⟨.invalid, .imp, 3⟩,
   ⟨.dey, .imp, 2⟩, ⟨.invalid, .imp, 2⟩, ⟨.txa, .imp, 2⟩, ⟨.invalid, .imp, 2⟩,
   ⟨.sty, .abs, 4⟩, ⟨.sta, .abs, 4⟩, ⟨.stx, .abs, 4⟩, ⟨.invalid, .imp, 4⟩]

/-- Row 9x of R127. -/
def tableRow9 : List Entry :=
  [⟨.bcc, .rel, 2⟩, ⟨.sta, .izy, 6⟩, ⟨.invalid, .imp, 2⟩, ⟨.invalid, .imp, 6⟩,
   ⟨.sty, .zpx, 4⟩, ⟨.sta, .zpx, 4⟩, ⟨.stx, .zpy, 4⟩, ⟨.invalid, .imp, 4⟩,
   ⟨.tya, .imp, 2⟩, ⟨.sta, .aby, 5⟩, ⟨.txs, .imp, 2⟩, ⟨.invalid, .imp, 5⟩,
   ⟨.invalid, .imp, 5⟩, ⟨.sta, .abx, 5⟩, ⟨.invalid, .imp, 5⟩, ⟨.invalid, .imp, 5⟩]

/-- Row Ax of R127. -/
def tableRowA : List Entry :=
  [⟨.ldy, .imm, 2⟩, ⟨.lda, .izx, 6⟩, ⟨.ldx, .imm, 2⟩, ⟨.invalid, .imp, 6⟩,
   ⟨.ldy, .zp0, 3⟩, ⟨.lda, .zp0, 3⟩, ⟨.ldx, .zp0, 3⟩, ⟨.invalid, .imp, 3⟩,
   ⟨.tay, .imp, 2⟩, ⟨.lda, .imm, 2⟩, ⟨.tax, .imp, 2⟩, ⟨.invalid, .imp, 2⟩,
   ⟨.ldy, .abs, 4⟩, ⟨.lda, .abs, 4⟩, ⟨.ldx, .abs, 4⟩, ⟨.invalid, .imp, 4⟩]

/-- Row Bx of R127. -/
def tableRowB : List Entry :=
  [⟨.bcs, .rel, 2⟩, ⟨.lda, .izy, 5⟩, ⟨.invalid, .imp, 2⟩, ⟨.invalid, .imp, 5⟩,
   ⟨.ldy, .zpx, 4⟩, ⟨.lda, .zpx, 4⟩, ⟨.ldx, .zpy, 4⟩, ⟨.invalid, .imp, 4⟩,
   ⟨.clv, .imp, 2⟩, ⟨.lda, .aby, 4⟩, ⟨.tsx, .imp, 2⟩, ⟨.invalid, .imp, 4⟩,
   ⟨.ldy, .abx, 4⟩, ⟨.lda, .abx, 4⟩, ⟨.ldx, .aby, 4⟩, ⟨.invalid, .imp, 4⟩]

/-- Row Cx of R127. -/
def tableRowC : List Entry :=
  [⟨.cpy, .imm, 2⟩, ⟨.cmp, .izx, 6⟩, ⟨.invalid, .imp, 2⟩, ⟨.invalid, .imp, 8⟩,
   ⟨.cpy, .zp0, 3⟩, ⟨.cmp, .zp0, 3⟩, ⟨.dec, .zp0, 5⟩, ⟨.invalid, .imp, 5⟩,
   ⟨.iny, .imp, 2⟩, ⟨.cmp, .imm, 2⟩, ⟨.dex, .imp, 2⟩, ⟨.invalid, .imp, 2⟩,
   ⟨.cpy, .abs, 4⟩, ⟨.cmp, .abs, 4⟩, ⟨.dec, .abs, 6⟩, ⟨.invalid, .imp, 6⟩]

/-- Row Dx of R127. -/
def tableRowD : List Entry :=
  [⟨.bne, .rel, 2⟩, ⟨.cmp, .izy, 5⟩, ⟨.invalid, .imp, 2⟩, ⟨.invalid, .imp, 8⟩,
   ⟨.invalid, .imp, 4⟩, ⟨.cmp, .zpx, 4⟩, ⟨.dec, .zpx, 6⟩, ⟨.invalid, .imp, 6⟩,
   ⟨.cld, .imp, 2⟩, ⟨.cmp, .aby, 4⟩, ⟨.invalid, .imp, 2⟩, ⟨.invalid, .imp, 7⟩,
   ⟨.invalid, .imp, 4⟩, ⟨.cmp, .abx, 4⟩, ⟨.dec, .abx, 7⟩, ⟨.invalid, .imp, 7⟩]

/-- Row Ex of R127. -/
def tableRowE : List Entry :=
  [⟨.cpx, .imm, 2⟩, ⟨.sbc, .izx, 6⟩, ⟨.invalid, .imp, 2⟩, ⟨.invalid, .imp, 8⟩,
   ⟨.cpx, .zp0, 3⟩, ⟨.sbc, .zp0, 3⟩, ⟨.inc, .zp0, 5⟩, ⟨.invalid, .imp, 5⟩,
   ⟨.inx, .imp, 2⟩, ⟨.sbc, .imm, 2⟩, ⟨.nop, .imp, 2⟩, ⟨.invalid, .imp, 2⟩,
   ⟨.cpx, .abs, 4⟩, ⟨.sbc, .abs, 4⟩, ⟨.inc, .abs, 6⟩, ⟨.invalid, .imp, 6⟩]

/-- Row Fx of R127. -/
def tableRowF : List Entry :=
  [⟨.beq, .rel, 2⟩, ⟨.sbc, .izy, 5⟩, ⟨.invalid, .imp, 2⟩, ⟨.invalid, .imp, 8⟩,
   ⟨.invalid, .imp, 4⟩, ⟨.sbc, .zpx, 4⟩, ⟨.inc, .zpx, 6⟩, ⟨.invalid, .imp, 6⟩,
   ⟨.sed, .imp, 2⟩, ⟨.sbc, .aby, 4⟩, ⟨.invalid, .imp, 2⟩, ⟨.invalid, .imp, 7⟩,
   ⟨.invalid, .imp, 4⟩, ⟨.sbc, .abx, 4⟩, ⟨.inc, .abx, 7⟩, ⟨.invalid, .imp, 7⟩]

/-- The rows of R127 in order of the high nibble. -/
def tableRows : List (List Entry) :=
  [tableRow0, tableRow1, tableRow2, tableRow3, tableRow4, tableRow5, tableRow6, tableRow7]
    ++ [tableRow8, tableRow9, tableRowA, tableRowB, tableRowC, tableRowD, tableRowE, tableRowF]

/-- `TABLE[opcode]` (R126). Every byte has an entry, so the default is never used. -/
def table (op : Byte) : Entry :=
  (tableRows.getD (op.toNat / 16) []).getD (op.toNat % 16) ⟨.invalid, .imp, 2⟩

/-- The number of operand bytes of a mode: its length in R120 less the opcode byte. -/
def operandLength : Mode → Nat
  | .imp => 0
  | .imm => 1 | .zp0 => 1 | .zpx => 1 | .zpy => 1 | .rel => 1 | .izx => 1 | .izy => 1
  | .abs => 2 | .abx => 2 | .aby => 2 | .ind => 2

/-- The length of an instruction in bytes (R120, R129). -/
def Instr.length (i : Instr) : Nat := 1 + operandLength i.mode

/-- The operand a mode makes of the first and second operand byte, low byte first (R121, R125). -/
def mkOperand (m : Mode) (b1 b2 : Byte) : Operand :=
  match m with
  | .imp => .imp | .imm => .imm b1 | .zp0 => .zp0 b1 | .zpx => .zpx b1 | .zpy => .zpy b1
  | .rel => .rel b1 | .izx => .izx b1 | .izy => .izy b1
  | .abs => .abs (word16 b2 b1) | .abx => .abx (word16 b2 b1) | .aby => .aby (word16 b2 b1)
  | .ind => .ind (word16 b2 b1)

/-- The instruction of an entry, its opcode byte and its operand bytes. -/
def mkInstr (e : Entry) (op b1 b2 : Byte) : Instr :=
  match e.op with
  | .lda => .lda (mkOperand e.mode b1 b2)
  | .ldx => .ldx (mkOperand e.mode b1 b2)
  | .ldy => .ldy (mkOperand e.mode b1 b2)
  | .sta => .sta (mkOperand e.mode b1 b2)
  | .stx => .stx (mkOperand e.mode b1 b2)
  | .sty => .sty (mkOperand e.mode b1 b2)
  | .adc => .adc (mkOperand e.mode b1 b2)
  | .sbc => .sbc (mkOperand e.mode b1 b2)
  | .and => .and (mkOperand e.mode b1 b2)
  | .eor => .eor (mkOperand e.mode b1 b2)
  | .ora => .ora (mkOperand e.mode b1 b2)
  | .bit => .bit (mkOperand e.mode b1 b2)
  | .cmp => .cmp (mkOperand e.mode b1 b2)
  | .cpx => .cpx (mkOperand e.mode b1 b2)
  | .cpy => .cpy (mkOperand e.mode b1 b2)
  | .inc => .inc (mkOperand e.mode b1 b2)
  | .dec => .dec (mkOperand e.mode b1 b2)
  | .inx => .inx
  | .iny => .iny
  | .dex => .dex
  | .dey => .dey
  | .asl => .asl (mkOperand e.mode b1 b2)
  | .lsr => .lsr (mkOperand e.mode b1 b2)
  | .rol => .rol (mkOperand e.mode b1 b2)
  | .ror => .ror (mkOperand e.mode b1 b2)
  | .bcc => .bcc b1
  | .bcs => .bcs b1
  | .beq => .beq b1
  | .bne => .bne b1
  | .bmi => .bmi b1
  | .bpl => .bpl b1
  | .bvc => .bvc b1
  | .bvs => .bvs b1
  | .jmp => .jmp (mkOperand e.mode b1 b2)
  | .jsr => .jsr (word16 b2 b1)
  | .rts => .rts
  | .brk => .brk
  | .rti => .rti
  | .pha => .pha
  | .php => .php
  | .pla => .pla
  | .plp => .plp
  | .clc => .clc
  | .cld => .cld
  | .cli => .cli
  | .clv => .clv
  | .sec => .sec
  | .sed => .sed
  | .sei => .sei
  | .tax => .tax
  | .tay => .tay
  | .tsx => .tsx
  | .txa => .txa
  | .txs => .txs
  | .tya => .tya
  | .nop => .nop
  | .invalid => .invalid op

/-- The instruction of an opcode byte and the operand bytes that follow it; a byte the instruction
does not have is ignored. Total: no byte value is undecodable (R126). -/
def instrOf (op b1 b2 : Byte) : Instr := mkInstr (table op) op b1 b2

/-- Why a list of bytes holds no whole instruction. No opcode byte is rejected (R126, R128). -/
inductive DecodeError where
  /-- The list is empty. -/
  | noOpcodeByte
  /-- The opcode byte asks for more operand bytes than the list has. -/
  | missingOperandBytes (op : Byte)
  deriving DecidableEq, Repr

/-- Reads one instruction from the front of a list of bytes and returns the rest (R126, R129). -/
def decode : List Byte → Except DecodeError (Instr × List Byte)
  | [] => .error .noOpcodeByte
  | op :: bs =>
    match operandLength (table op).mode, bs with
    | 0, rest => .ok (instrOf op 0 0, rest)
    | 1, b1 :: rest => .ok (instrOf op b1 0, rest)
    | 2, b1 :: b2 :: rest => .ok (instrOf op b1 b2, rest)
    | _, _ => .error (.missingOperandBytes op)

/-- The opcode byte of each form of an operation, from the Encoding lines of R180-R278. -/
def opcodeForms : Op → List (Mode × Byte)
  | .lda => [(.imm, 0xA9), (.zp0, 0xA5), (.zpx, 0xB5), (.abs, 0xAD), (.abx, 0xBD), (.aby, 0xB9), (.izx, 0xA1), (.izy, 0xB1)]
  | .ldx => [(.imm, 0xA2), (.zp0, 0xA6), (.zpy, 0xB6), (.abs, 0xAE), (.aby, 0xBE)]
  | .ldy => [(.imm, 0xA0), (.zp0, 0xA4), (.zpx, 0xB4), (.abs, 0xAC), (.abx, 0xBC)]
  | .sta => [(.zp0, 0x85), (.zpx, 0x95), (.abs, 0x8D), (.abx, 0x9D), (.aby, 0x99), (.izx, 0x81), (.izy, 0x91)]
  | .stx => [(.zp0, 0x86), (.zpy, 0x96), (.abs, 0x8E)]
  | .sty => [(.zp0, 0x84), (.zpx, 0x94), (.abs, 0x8C)]
  | .adc => [(.imm, 0x69), (.zp0, 0x65), (.zpx, 0x75), (.abs, 0x6D), (.abx, 0x7D), (.aby, 0x79), (.izx, 0x61), (.izy, 0x71)]
  | .sbc => [(.imm, 0xE9), (.zp0, 0xE5), (.zpx, 0xF5), (.abs, 0xED), (.abx, 0xFD), (.aby, 0xF9), (.izx, 0xE1), (.izy, 0xF1)]
  | .and => [(.imm, 0x29), (.zp0, 0x25), (.zpx, 0x35), (.abs, 0x2D), (.abx, 0x3D), (.aby, 0x39), (.izx, 0x21), (.izy, 0x31)]
  | .eor => [(.imm, 0x49), (.zp0, 0x45), (.zpx, 0x55), (.abs, 0x4D), (.abx, 0x5D), (.aby, 0x59), (.izx, 0x41), (.izy, 0x51)]
  | .ora => [(.imm, 0x09), (.zp0, 0x05), (.zpx, 0x15), (.abs, 0x0D), (.abx, 0x1D), (.aby, 0x19), (.izx, 0x01), (.izy, 0x11)]
  | .bit => [(.zp0, 0x24), (.abs, 0x2C)]
  | .cmp => [(.imm, 0xC9), (.zp0, 0xC5), (.zpx, 0xD5), (.abs, 0xCD), (.abx, 0xDD), (.aby, 0xD9), (.izx, 0xC1), (.izy, 0xD1)]
  | .cpx => [(.imm, 0xE0), (.zp0, 0xE4), (.abs, 0xEC)]
  | .cpy => [(.imm, 0xC0), (.zp0, 0xC4), (.abs, 0xCC)]
  | .inc => [(.zp0, 0xE6), (.zpx, 0xF6), (.abs, 0xEE), (.abx, 0xFE)]
  | .dec => [(.zp0, 0xC6), (.zpx, 0xD6), (.abs, 0xCE), (.abx, 0xDE)]
  | .inx => [(.imp, 0xE8)]
  | .iny => [(.imp, 0xC8)]
  | .dex => [(.imp, 0xCA)]
  | .dey => [(.imp, 0x88)]
  | .asl => [(.imp, 0x0A), (.zp0, 0x06), (.zpx, 0x16), (.abs, 0x0E), (.abx, 0x1E)]
  | .lsr => [(.imp, 0x4A), (.zp0, 0x46), (.zpx, 0x56), (.abs, 0x4E), (.abx, 0x5E)]
  | .rol => [(.imp, 0x2A), (.zp0, 0x26), (.zpx, 0x36), (.abs, 0x2E), (.abx, 0x3E)]
  | .ror => [(.imp, 0x6A), (.zp0, 0x66), (.zpx, 0x76), (.abs, 0x6E), (.abx, 0x7E)]
  | .bcc => [(.rel, 0x90)]
  | .bcs => [(.rel, 0xB0)]
  | .beq => [(.rel, 0xF0)]
  | .bne => [(.rel, 0xD0)]
  | .bmi => [(.rel, 0x30)]
  | .bpl => [(.rel, 0x10)]
  | .bvc => [(.rel, 0x50)]
  | .bvs => [(.rel, 0x70)]
  | .jmp => [(.abs, 0x4C), (.ind, 0x6C)]
  | .jsr => [(.abs, 0x20)]
  | .rts => [(.imp, 0x60)]
  | .brk => [(.imm, 0x00)]
  | .rti => [(.imp, 0x40)]
  | .pha => [(.imp, 0x48)]
  | .php => [(.imp, 0x08)]
  | .pla => [(.imp, 0x68)]
  | .plp => [(.imp, 0x28)]
  | .clc => [(.imp, 0x18)]
  | .cld => [(.imp, 0xD8)]
  | .cli => [(.imp, 0x58)]
  | .clv => [(.imp, 0xB8)]
  | .sec => [(.imp, 0x38)]
  | .sed => [(.imp, 0xF8)]
  | .sei => [(.imp, 0x78)]
  | .tax => [(.imp, 0xAA)]
  | .tay => [(.imp, 0xA8)]
  | .tsx => [(.imp, 0xBA)]
  | .txa => [(.imp, 0x8A)]
  | .txs => [(.imp, 0x9A)]
  | .tya => [(.imp, 0x98)]
  | .nop => [(.imp, 0xEA)]
  | .invalid => []

/-- The opcode byte of an instruction; none for a term that is no instruction. -/
def opcodeOf (i : Instr) : Option Byte :=
  match i with
  | .invalid b => if isInvalidOpcode b then some b else none
  | i => (opcodeForms i.op).lookup i.mode

/-- The operand bytes of an operand form, low byte first (R121). -/
def operandBytes : Operand → List Byte
  | .imp => []
  | .imm b => [b] | .zp0 b => [b] | .zpx b => [b] | .zpy b => [b] | .rel b => [b]
  | .izx b => [b] | .izy b => [b]
  | .abs w => [loByte w, hiByte w] | .abx w => [loByte w, hiByte w]
  | .aby w => [loByte w, hiByte w] | .ind w => [loByte w, hiByte w]

/-- The bytes of a well-formed instruction (R121); no bytes for a term that is no instruction. BRK's
padding byte is written as 0; DESIGN CHOICE (safe), log 12. -/
def encode (i : Instr) : List Byte :=
  match opcodeOf i with
  | some op => op :: operandBytes i.operand
  | none => []

/-- The three bytes of an instruction word numbered as opcode_table.json numbers it: bit 0 is the least
significant bit of the opcode byte, and the bits above `nbits` are 0. -/
def bytesOfTableWord (nbits w : Nat) : List Byte :=
  let w := w % 2 ^ nbits
  [BitVec.ofNat 8 w, BitVec.ofNat 8 (w / 2 ^ 8), BitVec.ofNat 8 (w / 2 ^ 16)]

/-- The instruction the decoder reads from a table word. -/
def decodeTableWord (nbits w : Nat) : Option Instr :=
  match decode (bytesOfTableWord nbits w) with
  | .ok (i, _) => some i
  | .error _ => none

end Sys2Proof
end

