-- ==== Sys2Proof/Machine/State.lean ====
section
/-!
DEFINITION. The state of the machine (10_state.md), the reasons a step or a host operation can stop,
and the state after reset.
-/

namespace Sys2Proof.Machine

open Sys2Proof

/-- A memory array: its bytes by index, indices strictly rising, no byte listed that equals what an
unlisted index reads as. -/
abbrev Memory := List Host.Cell

/-- What an unlisted index reads as. For `mem` this is R42's "defaulting to 0 if unset"; for the arrays
whose power-on contents are draws (`ram`, `nt0`, `nt1`, `palette`, CHR RAM) it only says which contents
the empty list stands for. DESIGN CHOICE (unsafe for `State.reset`), log 3, 4. -/
abbrev unlistedByte : Byte := 0x00

/-- Indices at least `lo` and strictly rising, no unlisted byte listed. -/
def Memory.wfFrom : Nat → Memory → Bool
  | _, [] => true
  | lo, (a, b) :: m => decide (lo ≤ a) && b != unlistedByte && Memory.wfFrom (a + 1) m

/-- The canonical form of a memory array. -/
def Memory.wf (m : Memory) : Bool := Memory.wfFrom 0 m

/-- Every listed index is below `n`. -/
def Memory.below (n : Nat) (m : Memory) : Bool := m.all fun c => decide (c.1 < n)

/-- The CPU's registers and pipeline latches (R20-R26, R36-R40). -/
structure Cpu where
  /-- A (R20) -/
  a : Byte
  /-- X (R21) -/
  x : Byte
  /-- Y (R22) -/
  y : Byte
  /-- SP (R23) -/
  sp : Byte
  /-- P: C Z I D B U V N at bits 0 to 7 (R26) -/
  p : Byte
  /-- PC (R25) -/
  pc : Word
  /-- addr_abs (R36) -/
  addrAbs : Word
  /-- addr_rel (R37) -/
  addrRel : Word
  /-- fetched (R38) -/
  fetched : Byte
  /-- opcode (R39) -/
  opcode : Byte
  /-- cycles (R40) -/
  cycles : Nat
  deriving DecidableEq, Repr

/-- Name-table mirroring (R44). -/
inductive Mirroring where
  | horizontal
  | vertical
  deriving DecidableEq, Repr

/-- A loaded cartridge (R44-R46). -/
structure Cartridge where
  /-- prg_banks, in 16 KiB units (R44) -/
  prgBanks : Byte
  /-- chr_banks, in 8 KiB units (R44) -/
  chrBanks : Byte
  /-- mapper id (R44) -/
  mapper : Byte
  /-- mirroring (R44) -/
  mirroring : Mirroring
  /-- PRG ROM (R45) -/
  prg : Memory
  /-- CHR ROM, or CHR RAM when `chrBanks` is 0 (R46) -/
  chr : Memory
  deriving DecidableEq, Repr

/-- What the pixel sink receives (60_exceptions.md R353). -/
structure Pixel where
  x : Nat
  y : Nat
  colour : BitVec 6
  deriving DecidableEq, Repr

/-- The PPU: CPU-visible registers (R47-R50), internal registers and memories (R51-R61). -/
structure Ppu where
  /-- PPUCTRL (R47) -/
  ctrl : Byte
  /-- PPUMASK (R48) -/
  mask : Byte
  /-- status bit 5 (R49) -/
  spriteOverflow : Bool
  /-- status bit 6 (R49) -/
  spriteZeroHit : Bool
  /-- status bit 7 (R49) -/
  verticalBlank : Bool
  /-- ppu_bus (R50) -/
  ppuBus : Byte
  /-- v (R51) -/
  v : BitVec 15
  /-- t (R51) -/
  t : BitVec 15
  /-- fine_x (R52) -/
  fineX : BitVec 3
  /-- w (R53) -/
  w : Bool
  /-- data_buffer (R54) -/
  dataBuffer : Byte
  /-- nt[0] (R55) -/
  nt0 : Memory
  /-- nt[1] (R55) -/
  nt1 : Memory
  /-- palette (R56) -/
  palette : Memory
  /-- bg_next_tile_id (R57) -/
  bgNextTileId : Byte
  /-- bg_next_tile_attrib (R57) -/
  bgNextTileAttrib : Byte
  /-- bg_next_tile_lsb (R57) -/
  bgNextTileLsb : Byte
  /-- bg_next_tile_msb (R57) -/
  bgNextTileMsb : Byte
  /-- bg_shifter_pattern_lo (R58) -/
  bgShifterPatternLo : Word
  /-- bg_shifter_pattern_hi (R58) -/
  bgShifterPatternHi : Word
  /-- bg_shifter_attrib_lo (R58) -/
  bgShifterAttribLo : Word
  /-- bg_shifter_attrib_hi (R58) -/
  bgShifterAttribHi : Word
  /-- scanline, -1 to 260 (R59) -/
  scanline : Int
  /-- cycle, 0 to 340 (R59) -/
  cycle : Nat
  /-- nmi_request (R60) -/
  nmiRequest : Bool
  /-- frame_completed (R61) -/
  frameCompleted : Bool
  /-- The model's own field: what the latest PPU clock handed to the pixel sink (R353). DESIGN CHOICE
  (safe), log 11. -/
  pixel : Option Pixel
  deriving DecidableEq, Repr

/-- The whole machine. -/
structure State where
  /-- The CPU. -/
  cpu : Cpu
  /-- The PPU. -/
  ppu : Ppu
  /-- Internal RAM, 2048 bytes (R41). -/
  ram : Memory
  /-- The bus's backing array (R42). -/
  mem : Memory
  /-- The system-clock counter (R43). -/
  sysClock : Nat
  /-- The cartridge, none before `insert_cartridge` (R63). -/
  cart : Option Cartridge
  /-- The named parameters (00_scope.md R6); constant. -/
  params : Params
  deriving DecidableEq, Repr

/-- Why the cartridge loader rejects an image (00_scope.md R12). -/
inductive LoadError where
  /-- R86 -/
  | badHeader
  /-- R90 -/
  | unsupportedMapper
  /-- R91 -/
  | prgBankCount
  /-- R91 -/
  | truncated
  deriving DecidableEq, Repr

/-- The machine's faults. No instruction, operand or access raises one (60_exceptions.md R300). -/
inductive Fault where
  /-- Raised by the host operation `insert_cartridge` for an image the loader rejects, never by a step:
  the system refuses to start (R12, R94). Safe: it is the stop the spec states. -/
  | loadError (reason : LoadError)
  deriving DecidableEq, Repr

/-- The machine's refusals. -/
inductive Refusal where
  /-- Raised by an arm of `exec` whose instruction has no meaning yet. Safe. -/
  | notModelled (mnemonic : String)
  /-- Raised by `exec` on a term of `Instr` that no opcode byte stands for, such as a store to an
  immediate operand. The decoder makes no such term, so no step raises it. Safe. Log 13. -/
  | noTableEntry
  deriving DecidableEq, Repr

/-- The state right after reset: the power-on state with no cartridge (R63) after `cpu.reset()` (R400,
R62). The vector is read from an unset `mem`, so PC is 0 (R71). The `opcode` latch and the memories are
draws the spec leaves free; here they are 0: DESIGN CHOICE (unsafe), log 2, 3, 4. -/
def State.reset : State where
  cpu :=
    { a := 0x00, x := 0x00, y := 0x00, sp := 0xFD, p := 0x20, pc := 0x0000
      addrAbs := 0x0000, addrRel := 0x0000, fetched := 0x00, opcode := 0x00, cycles := 8 }
  ppu :=
    { ctrl := 0x00, mask := 0x00
      spriteOverflow := false, spriteZeroHit := false, verticalBlank := false
      ppuBus := 0x00, v := 0, t := 0, fineX := 0, w := false, dataBuffer := 0x00
      nt0 := [], nt1 := [], palette := []
      bgNextTileId := 0x00, bgNextTileAttrib := 0x00, bgNextTileLsb := 0x00, bgNextTileMsb := 0x00
      bgShifterPatternLo := 0x0000, bgShifterPatternHi := 0x0000
      bgShifterAttribLo := 0x0000, bgShifterAttribHi := 0x0000
      scanline := -1, cycle := 0, nmiRequest := false, frameCompleted := false, pixel := none }
  ram := []
  mem := []
  sysClock := 0
  cart := none
  params := Params.default

end Sys2Proof.Machine
end

