-- ==== Sys2Proof/Machine/Ops.lean ====
section
/-!
DEFINITION. The named operations every meaning is built from: memory arrays; register writes; the PPU's
address space and register ports; the bus; the stack; taking an interrupt, returning from one, reset.
-/

namespace Sys2Proof.Machine

open Sys2Proof

/-! ### Memory arrays -/

/-- Reads one byte of a memory array. -/
def Memory.read : Memory → Nat → Byte
  | [], _ => unlistedByte
  | (a, b) :: m, i => if i = a then b else if i < a then unlistedByte else Memory.read m i

/-- Writes one byte, keeping the canonical form: a byte equal to what an unlisted index reads as is not
listed. -/
def Memory.write : Memory → Nat → Byte → Memory
  | [], i, v => if v = unlistedByte then [] else [(i, v)]
  | (a, b) :: m, i, v =>
    if i < a then if v = unlistedByte then (a, b) :: m else (i, v) :: (a, b) :: m
    else if i = a then if v = unlistedByte then m else (i, v) :: m
    else (a, b) :: Memory.write m i v

/-- The memory array that holds a list of bytes from index `base` on. -/
def Memory.ofBytes : Nat → List Byte → Memory
  | _, [] => []
  | base, b :: bs =>
    if b = unlistedByte then Memory.ofBytes (base + 1) bs
    else (base, b) :: Memory.ofBytes (base + 1) bs

/-! ### Register writes -/

/-- `A <- v` -/
def State.setA (s : State) (v : Byte) : State := { s with cpu := { s.cpu with a := v } }
/-- `X <- v` -/
def State.setX (s : State) (v : Byte) : State := { s with cpu := { s.cpu with x := v } }
/-- `Y <- v` -/
def State.setY (s : State) (v : Byte) : State := { s with cpu := { s.cpu with y := v } }
/-- `SP <- v` -/
def State.setSp (s : State) (v : Byte) : State := { s with cpu := { s.cpu with sp := v } }
/-- `P <- v` -/
def State.setP (s : State) (v : Byte) : State := { s with cpu := { s.cpu with p := v } }
/-- `PC <- v` -/
def State.setPc (s : State) (v : Word) : State := { s with cpu := { s.cpu with pc := v } }
/-- `addr_abs <- v` -/
def State.setAddrAbs (s : State) (v : Word) : State := { s with cpu := { s.cpu with addrAbs := v } }
/-- `addr_rel <- v` -/
def State.setAddrRel (s : State) (v : Word) : State := { s with cpu := { s.cpu with addrRel := v } }
/-- `fetched <- v` -/
def State.setFetched (s : State) (v : Byte) : State := { s with cpu := { s.cpu with fetched := v } }
/-- `opcode <- v` -/
def State.setOpcode (s : State) (v : Byte) : State := { s with cpu := { s.cpu with opcode := v } }
/-- `cycles <- n` -/
def State.setCycles (s : State) (n : Nat) : State := { s with cpu := { s.cpu with cycles := n } }
/-- Replaces the PPU. -/
def State.setPpu (s : State) (p : Ppu) : State := { s with ppu := p }
/-- Replaces the cartridge. -/
def State.setCart (s : State) (c : Option Cartridge) : State := { s with cart := c }
/-- Replaces RAM. -/
def State.setRam (s : State) (m : Memory) : State := { s with ram := m }
/-- Replaces the backing array. -/
def State.setMem (s : State) (m : Memory) : State := { s with mem := m }

/-- Writes one flag of P and no other bit (R26). -/
def State.setFlag (s : State) (i : Nat) (on : Bool) : State := s.setP (putBit s.cpu.p i on)

/-! ### The PPU's address space (20_memory.md R97, R98, R100 to R104) -/

/-- ctrl.increment_mode (R47). -/
def Ppu.incrementMode (p : Ppu) : Bool := p.ctrl.getLsbD 2
/-- ctrl.pattern_background (R47). -/
def Ppu.patternBackground (p : Ppu) : Bool := p.ctrl.getLsbD 4
/-- ctrl.enable_nmi (R47). -/
def Ppu.enableNmi (p : Ppu) : Bool := p.ctrl.getLsbD 7
/-- mask.grayscale (R48). -/
def Ppu.grayscale (p : Ppu) : Bool := p.mask.getLsbD 0
/-- mask.render_background (R48). -/
def Ppu.renderBackground (p : Ppu) : Bool := p.mask.getLsbD 3
/-- mask.render_sprites (R48). -/
def Ppu.renderSprites (p : Ppu) : Bool := p.mask.getLsbD 4

/-- `ppu_read` for 0x0000-0x1FFF (R97); without a cartridge a free value, log 5. -/
def chrRead (cart : Option Cartridge) (a : Nat) : Byte :=
  match cart with
  | some c => c.chr.read a
  | none => Config.noCartridgeChr a

/-- `ppu_write` for 0x0000-0x1FFF (R98): CHR RAM takes the byte, CHR ROM loses it, and without a
cartridge there is nothing to write. -/
def chrWrite (cart : Option Cartridge) (a : Nat) (d : Byte) : Option Cartridge :=
  match cart with
  | some c => some (if c.chrBanks = 0 then { c with chr := c.chr.write a d } else c)
  | none => none

/-- Whether the name tables are mirrored vertically (R44, R102); without a cartridge a free value,
log 5. -/
def verticalMirroring (cart : Option Cartridge) : Bool :=
  match cart with
  | some c => c.mirroring == .vertical
  | none => Config.noCartridgeVertical

/-- `NtSelect(a)`: the physical name table of a PPU address (R102). -/
def ntSelect (cart : Option Cartridge) (a : Nat) : Nat :=
  let q := (a &&& 0x0FFF) >>> 10
  if verticalMirroring cart then q &&& 1 else q >>> 1

/-- `PalIndex(a)` (R103). -/
def palIndex (a : Nat) : Nat :=
  let p := a &&& 0x1F
  if p = 0x10 ∨ p = 0x14 ∨ p = 0x18 ∨ p = 0x1C then p - 0x10 else p

/-- `nt[k][i]` (R55). -/
def Ppu.ntRead (p : Ppu) (k i : Nat) : Byte := if k = 0 then p.nt0.read i else p.nt1.read i

/-- `nt[k][i] <- d` (R55). -/
def Ppu.ntWrite (p : Ppu) (k i : Nat) (d : Byte) : Ppu :=
  if k = 0 then { p with nt0 := p.nt0.write i d } else { p with nt1 := p.nt1.write i d }

/-- `PpuRead(addr)` (R100). -/
def ppuRead (cart : Option Cartridge) (p : Ppu) (addr : Word) : Byte :=
  let a := (addr &&& 0x3FFF).toNat
  if a ≤ 0x1FFF then chrRead cart a
  else if a ≤ 0x3EFF then p.ntRead (ntSelect cart a) (a &&& 0x03FF)
  else p.palette.read (palIndex a) &&& (if p.grayscale then 0x30 else 0x3F)

/-- `PpuWrite(addr, d)` (R104). -/
def ppuWrite (addr : Word) (d : Byte) (s : State) : State :=
  let a := (addr &&& 0x3FFF).toNat
  if a ≤ 0x1FFF then s.setCart (chrWrite s.cart a d)
  else if a ≤ 0x3EFF then s.setPpu (s.ppu.ntWrite (ntSelect s.cart a) (a &&& 0x03FF) d)
  else s.setPpu { s.ppu with palette := s.ppu.palette.write (palIndex a) d }

/-! ### The fields of `v` and `t` (10_state.md R51) -/

/-- coarse_x -/
def coarseX (v : BitVec 15) : BitVec 5 := v.extractLsb' 0 5
/-- coarse_y -/
def coarseY (v : BitVec 15) : BitVec 5 := v.extractLsb' 5 5
/-- nametable_x -/
def nametableX (v : BitVec 15) : Bool := v.getLsbD 10
/-- nametable_y -/
def nametableY (v : BitVec 15) : Bool := v.getLsbD 11
/-- fine_y -/
def fineY (v : BitVec 15) : BitVec 3 := v.extractLsb' 12 3

/-- The VRAM address with the given fields. -/
def vramAddr (fy : BitVec 3) (ny nx : Bool) (cy cx : BitVec 5) : BitVec 15 :=
  fy ++ BitVec.ofBool ny ++ BitVec.ofBool nx ++ cy ++ cx

/-! ### The PPU's register ports (60_exceptions.md R320 to R332) -/

/-- `CtrlWrite(d)` (R322). -/
def ctrlWrite (d : Byte) (p : Ppu) : Ppu :=
  { p with
    ctrl := d
    t := vramAddr (fineY p.t) (d.getLsbD 1) (d.getLsbD 0) (coarseY p.t) (coarseX p.t) }

/-- `MaskWrite(d)` (R323). -/
def maskWrite (d : Byte) (p : Ppu) : Ppu := { p with mask := d }

/-- `ScrollWrite(d)` (R325). -/
def scrollWrite (d : Byte) (p : Ppu) : Ppu :=
  if p.w then
    { p with
      t := vramAddr (d.extractLsb' 0 3) (nametableY p.t) (nametableX p.t) (d.extractLsb' 3 5)
        (coarseX p.t)
      w := false }
  else
    { p with
      fineX := d.extractLsb' 0 3
      t := vramAddr (fineY p.t) (nametableY p.t) (nametableX p.t) (coarseY p.t) (d.extractLsb' 3 5)
      w := true }

/-- `AddrWrite(d)` (R326). -/
def addrWrite (d : Byte) (p : Ppu) : Ppu :=
  if p.w then
    let t := (p.t &&& 0x7F00) ||| d.setWidth 15
    { p with t := t, v := t, w := false }
  else
    { p with t := ((d &&& 0x3F).setWidth 15 <<< 8) ||| (p.t &&& 0x00FF), w := true }

/-- `IncV()` (R327). -/
def incV (p : Ppu) : Ppu := { p with v := p.v + (if p.incrementMode then 32 else 1) }

/-- The status byte a read of 0x2002 returns: bits 7 to 5 the flags, bits 4 to 0 from `ppu_bus`
(R49, R324). -/
def statusByte (p : Ppu) : Byte :=
  BitVec.ofBool p.verticalBlank ++ BitVec.ofBool p.spriteZeroHit ++ BitVec.ofBool p.spriteOverflow
    ++ p.ppuBus.extractLsb' 0 5

/-- `StatusRead(read_only)` (R324). -/
def statusRead (readOnly : Bool) (s : State) : Byte × State :=
  let r := statusByte s.ppu
  if readOnly then (r, s) else (r, s.setPpu { s.ppu with verticalBlank := false, w := false })

/-- `DataRead(read_only)` (R328). -/
def dataRead (readOnly : Bool) (s : State) : Byte × State :=
  let addr := s.ppu.v.setWidth 16
  let pal : Bool := decide ((addr &&& 0x3FFF).toNat ≥ 0x3F00)
  let old := s.ppu.dataBuffer
  let fresh := ppuRead s.cart s.ppu addr
  let r := if pal then fresh else old
  if readOnly then (r, s) else (r, s.setPpu (incV { s.ppu with dataBuffer := fresh }))

/-- `DataWrite(d)` (R329). -/
def dataWrite (d : Byte) (s : State) : State :=
  let s := ppuWrite (s.ppu.v.setWidth 16) d s
  s.setPpu (incV s.ppu)

/-- `PpuRegRead(i, read_only)` (R320, R330). -/
def ppuRegRead (i : Nat) (readOnly : Bool) (s : State) : Byte × State :=
  if i = 2 then statusRead readOnly s
  else if i = 7 then dataRead readOnly s
  else (0x00, s)

/-- `PpuRegWrite(i, d)` (R320): the open-bus latch first, then the register's own effect (R321, R331). -/
def ppuRegWrite (i : Nat) (d : Byte) (s : State) : State :=
  let s := s.setPpu { s.ppu with ppuBus := d }
  if i = 0 then s.setPpu (ctrlWrite d s.ppu)
  else if i = 1 then s.setPpu (maskWrite d s.ppu)
  else if i = 5 then s.setPpu (scrollWrite d s.ppu)
  else if i = 6 then s.setPpu (addrWrite d s.ppu)
  else if i = 7 then dataWrite d s
  else s

/-! ### The bus (20_memory.md R71 to R79) -/

/-- `addr & 0x07FF`: the RAM index of an address (R73, R77). -/
def ramIndex (addr : Word) : Nat := (addr &&& 0x07FF).toNat

/-- `addr & 0x0007`: the PPU register index of an address (R74). -/
def regIndex (addr : Word) : Nat := (addr &&& 0x0007).toNat

/-- 0x0000 to 0x1FFF. -/
def inRam (addr : Word) : Bool := decide (addr.toNat ≤ 0x1FFF)

/-- 0x2000 to 0x3FFF. -/
def inPpuWindow (addr : Word) : Bool := decide (0x2000 ≤ addr.toNat ∧ addr.toNat ≤ 0x3FFF)

/-- `Bus.read(addr, read_only)` (R71). -/
def busRead (addr : Word) (readOnly : Bool) (s : State) : Byte × State :=
  if inRam addr then (s.ram.read (ramIndex addr), s)
  else if inPpuWindow addr then ppuRegRead (regIndex addr) readOnly s
  else (s.mem.read addr.toNat, s)

/-- `FallbackWrite(addr, d)` (R77). -/
def fallbackWrite (addr : Word) (d : Byte) (s : State) : State :=
  if s.params.fallbackAliasesRam then s.setRam (s.ram.write (ramIndex addr) d)
  else s.setMem (s.mem.write (ramIndex addr) d)

/-- `Bus.write(addr, d)` (R72): `MemWrite(addr, 1, d)` (R11). -/
def memWrite (addr : Word) (d : Byte) (s : State) : State :=
  if inRam addr then s.setRam (s.ram.write (ramIndex addr) d)
  else if inPpuWindow addr then ppuRegWrite (regIndex addr) d s
  else fallbackWrite addr d s

/-- `MemRead(addr, 1)` (R11): every access of the CPU (R78). -/
def memRead (addr : Word) (s : State) : Byte × State := busRead addr false s

/-- The driver's peek: `Bus.read(addr, true)` (R78). -/
def peek (s : State) (addr : Word) : Byte := (busRead addr true s).1

/-- Two one-byte reads, the low byte first, assembled little-endian (R79). -/
def readPointer (loAt hiAt : Word) (s : State) : Word × State :=
  let lo := memRead loAt s
  let hi := memRead hiAt lo.2
  (word16 hi.1 lo.1, hi.2)

/-- `MemRead16(a)` (R11). -/
def memRead16 (a : Word) (s : State) : Word × State := readPointer a (a + 1) s

/-! ### The stack (40_pipeline_addressing.md R145, R146) -/

/-- `0x0100 + SP`. -/
def stackAddr (sp : Byte) : Word := 0x0100 + zext16 sp

/-- `Push(v)` (R145). -/
def push (v : Byte) (s : State) : State :=
  let s := memWrite (stackAddr s.cpu.sp) v s
  s.setSp (s.cpu.sp - 1)

/-- `Pop()` (R146). -/
def pop (s : State) : Byte × State :=
  let s := s.setSp (s.cpu.sp + 1)
  memRead (stackAddr s.cpu.sp) s

/-- Pushes a 16-bit address, high byte first (R79). -/
def pushWord (w : Word) (s : State) : State := push (loByte w) (push (hiByte w) s)

/-- Pops a 16-bit address, low byte first (R241, R243). -/
def popWord (s : State) : Word × State :=
  let lo := pop s
  let hi := pop lo.2
  (word16 hi.1 lo.1, hi.2)

/-! ### Interrupts and reset (60_exceptions.md R301 to R307, 70_reset_and_hazards.md R400) -/

/-- The vector of irq() and BRK (R84). -/
def irqVector : Word := 0xFFFE

/-- The vector of reset() (R84). -/
def resetVector : Word := 0xFFFC

/-- Taking an interrupt: push PC high, PC low and the status byte `pushed`; leave `live` with I = 1 in P;
load PC from the vector. The part irq(), nmi() and BRK share (R302, R303, R242). -/
def takeInterrupt (pushed live : Byte) (vector : Word) (s : State) : State :=
  let s := pushWord s.cpu.pc s
  let s := push pushed s
  let s := s.setP (putBit live bitI true)
  let target := memRead16 vector s
  target.2.setPc target.1

/-- `irq()` (R302): ignored, and not latched, while I = 1 (R309). -/
def irq (s : State) : State :=
  if flag s.cpu.p bitI then s
  else
    let live := pushedByInterrupt s.cpu.p
    (takeInterrupt live live irqVector s).setCycles 7

/-- `nmi()` (R303). -/
def nmi (s : State) : State :=
  let live := pushedByInterrupt s.cpu.p
  (takeInterrupt live live s.params.nmiVector s).setCycles 8

/-- Returning from an interrupt: pop P with B and U cleared, then PC low and high (R243, R307). -/
def returnFromInterrupt (s : State) : State :=
  let status := pop s
  let s := status.2.setP (putBit (putBit status.1 bitB false) bitU false)
  let target := popWord s
  target.2.setPc target.1

/-- `cpu.reset()` (R400). -/
def cpuReset (s : State) : State :=
  let target := memRead16 resetVector s
  let s := target.2
  { s with
    cpu :=
      { s.cpu with
        a := 0x00, x := 0x00, y := 0x00, sp := 0xFD, p := 0x20, pc := target.1
        addrAbs := 0x0000, addrRel := 0x0000, fetched := 0x00, cycles := 8 } }

/-- `complete()` (40 R144). -/
def complete (s : State) : Bool := s.cpu.cycles == 0

/-- The Bus's NMI forwarding at the end of a bus call (R313, R315). -/
def forwardNmi (s : State) : State :=
  if s.ppu.nmiRequest then nmi (s.setPpu { s.ppu with nmiRequest := false }) else s

/-- The last step of a CPU clock: `cycles <- cycles - 1` (40 R140). -/
def countDown (s : State) : State := s.setCycles (s.cpu.cycles - 1)

/-- The last step of a bus call: `sys_clock <- sys_clock + 1` (R313). -/
def advanceSysClock (s : State) : State := { s with sysClock := s.sysClock + 1 }

end Sys2Proof.Machine
end

