-- ==== Sys2Proof/Machine/Operands.lean ====
section
/-!
DEFINITION. The addressing modes (40_pipeline_addressing.md R150 to R161), fetch() (R141), the frame of
the CPU clock around an operation (R140, R142, R143), and the bus reads that fetch an instruction's own
bytes (R140, R147).
-/

namespace Sys2Proof.Machine

open Sys2Proof

/-- Adding an index to a base address changes its page (R157). -/
def pageCrossed (base target : Word) : Bool := (target &&& 0xFF00) != (base &&& 0xFF00)

/-- The successor of an IND pointer, with the page-wrap bug (R159). -/
def indHighAddr (ptr : Word) : Word := if loByte ptr = 0xFF then ptr &&& 0xFF00 else ptr + 1

/-- What an addressing mode computes: the effective address and mode_extra, with the state after the
mode's pointer reads. PC is already past the opcode byte (R149). -/
structure Resolved where
  addr : Word
  extra : Bool
  state : State

/-- The effective address of an operand form (R150 to R161). IMP and REL compute none and leave
`addr_abs` alone (R149). For IMM it is the address after the opcode byte (R151). -/
def effective (o : Operand) (s : State) : Resolved :=
  match o with
  | .imp => ⟨s.cpu.addrAbs, false, s⟩
  | .imm _ => ⟨s.cpu.pc, false, s⟩
  | .zp0 z => ⟨zext16 z, false, s⟩
  | .zpx z => ⟨zext16 (z + s.cpu.x), false, s⟩
  | .zpy z => ⟨zext16 (z + s.cpu.y), false, s⟩
  | .rel _ => ⟨s.cpu.addrAbs, false, s⟩
  | .abs w => ⟨w, false, s⟩
  | .abx w => ⟨w + zext16 s.cpu.x, pageCrossed w (w + zext16 s.cpu.x), s⟩
  | .aby w => ⟨w + zext16 s.cpu.y, pageCrossed w (w + zext16 s.cpu.y), s⟩
  | .ind w =>
    let p := readPointer w (indHighAddr w) s
    ⟨p.1, false, p.2⟩
  | .izx z =>
    let p := readPointer (zext16 (z + s.cpu.x)) (zext16 (z + s.cpu.x + 1)) s
    ⟨p.1, false, p.2⟩
  | .izy z =>
    let p := readPointer (zext16 z) (zext16 (z + 1)) s
    ⟨p.1 + zext16 s.cpu.y, pageCrossed p.1 (p.1 + zext16 s.cpu.y), p.2⟩

/-- The effective address alone. -/
def effAddr (o : Operand) (s : State) : Word := (effective o s).addr

/-- The latch a mode writes: `fetched` for IMP, `addr_rel` for REL, `addr_abs` for the others (R149). -/
def latchMode (o : Operand) (addr : Word) (s : State) : State :=
  match o with
  | .imp => s.setFetched s.cpu.a
  | .rel b => s.setAddrRel (sext16 b)
  | .imm _ => s.setAddrAbs addr
  | .zp0 _ => s.setAddrAbs addr
  | .zpx _ => s.setAddrAbs addr
  | .zpy _ => s.setAddrAbs addr
  | .abs _ => s.setAddrAbs addr
  | .abx _ => s.setAddrAbs addr
  | .aby _ => s.setAddrAbs addr
  | .ind _ => s.setAddrAbs addr
  | .izx _ => s.setAddrAbs addr
  | .izy _ => s.setAddrAbs addr

/-- `AddrMode[mode]()`: resolves the operand and advances PC past its bytes (R149 to R161). -/
def addrMode (o : Operand) (s : State) : State :=
  let r := effective o s
  let s := latchMode o r.addr r.state
  s.setPc (s.cpu.pc + BitVec.ofNat 16 (operandLength o.mode))

/-- mode_extra (R142): 1 only for ABX, ABY and IZY when the index crosses a page. -/
def modeExtra (o : Operand) (s : State) : Bool := (effective o s).extra

/-- `fetch()` (R141): IMP has A in `fetched` already; the immediate byte is the one read at
`addr_abs = PC`, which the instruction carries (log 9); every other mode reads `addr_abs`. -/
def fetchOperand (o : Operand) (s : State) : State :=
  match o with
  | .imp => s
  | .imm b => s.setFetched b
  | .zp0 _ | .zpx _ | .zpy _ | .rel _ | .abs _ | .abx _ | .aby _ | .ind _ | .izx _ | .izy _ =>
    let r := memRead s.cpu.addrAbs s
    r.2.setFetched r.1

/-- `WriteBack(r)` (43_shift_rotate.md): A in the IMP form, else memory at `addr_abs`. -/
def writeBack (o : Operand) (r : Byte) (s : State) : State :=
  match o with
  | .imp => s.setA r
  | .imm _ | .zp0 _ | .zpx _ | .zpy _ | .rel _ | .abs _ | .abx _ | .aby _ | .ind _ | .izx _
  | .izy _ => memWrite s.cpu.addrAbs r s

/-- The base cycle count of an opcode byte: the table's (R127), for an INVALID byte the parameter
P_INVALID_CYCLES (D7). -/
def baseCycles (params : Params) (op : Byte) : Nat :=
  if (table op).op = .invalid then (params.invalidCycles.lookup op).getD (table op).base
  else (table op).base

/-- The first part of an instruction's CPU clock, before the mode routine (R140). -/
def beginInstr (op : Byte) (s : State) : State :=
  let s := s.setOpcode op
  let s := s.setPc (s.cpu.pc + 1)
  let s := s.setFlag bitU true
  s.setCycles (baseCycles s.params op)

/-- The part after the operation: the page-cross cycle and the second forcing of U (R140, R143). -/
def endInstr (extra : Bool) (s : State) : State :=
  (s.setCycles (s.cpu.cycles + extra.toNat)).setFlag bitU true

/-- One whole instruction (R140): opcode latch, PC, U, base cycles; the mode; the operation; the extra
cycle when both the mode and the operation ask for it (R142); U again. The bytes of the instruction have
been read by `fetchInstr`, and the CPU clock counts `cycles` down afterwards. -/
def runEntry (i : Instr) (opExtra : Bool) (operation : State → State) (s : State) :
    Host.Outcome State Fault Refusal :=
  match opcodeOf i with
  | none => .refused .noTableEntry
  | some op =>
    let s := beginInstr op s
    let extra := modeExtra i.operand s && opExtra
    .next (endInstr extra (operation (addrMode i.operand s)))

/-- How many operand bytes an instruction reads from the bus: those of its mode, but BRK's padding byte
is never read (R120, R242). -/
def operandReads (op : Byte) : Nat :=
  if (table op).op = .brk then 0 else operandLength (table op).mode

/-- The bus reads of an instruction's own bytes at PC, PC + 1 and PC + 2 (R80, R140, R147), and the
instruction they make. PC itself is advanced by `runEntry`. Log 9. -/
def fetchInstr (s : State) : Instr × State :=
  let r0 := memRead s.cpu.pc s
  match operandReads r0.1 with
  | 0 => (instrOf r0.1 0 0, r0.2)
  | 1 =>
    let r1 := memRead (s.cpu.pc + 1) r0.2
    (instrOf r0.1 r1.1 0, r1.2)
  | _ =>
    let r1 := memRead (s.cpu.pc + 1) r0.2
    let r2 := memRead (s.cpu.pc + 2) r1.2
    (instrOf r0.1 r1.1 r2.1, r2.2)

end Sys2Proof.Machine
end

