-- ==== Sys2Proof/Machine/Arith.lean ====
section
/-!
DEFINITION. Arithmetic, logic, compare, increment and decrement (42_arithmetic_logic.md R190 to R204).
-/

namespace Sys2Proof.Machine

open Sys2Proof

/-- Replaces A and P by an arithmetic result. -/
def putAlu (r : Alu) (s : State) : State := (s.setA r.result).setP r.status

/-- ADC (R190). -/
def execAdc (o : Operand) (s : State) : Host.Outcome State Fault Refusal :=
  runEntry (.adc o) true (fun s =>
    let s := fetchOperand o s
    putAlu (adc s.cpu.p s.cpu.a s.cpu.fetched) s) s

/-- SBC (R191). -/
def execSbc (o : Operand) (s : State) : Host.Outcome State Fault Refusal :=
  runEntry (.sbc o) true (fun s =>
    let s := fetchOperand o s
    putAlu (sbc s.cpu.p s.cpu.a s.cpu.fetched) s) s

/-- AND (R192). -/
def execAnd (o : Operand) (s : State) : Host.Outcome State Fault Refusal :=
  runEntry (.and o) true (fun s =>
    let s := fetchOperand o s
    let r := s.cpu.a &&& s.cpu.fetched
    (s.setA r).setP (setZN s.cpu.p r)) s

/-- EOR (R193). -/
def execEor (o : Operand) (s : State) : Host.Outcome State Fault Refusal :=
  runEntry (.eor o) true (fun s =>
    let s := fetchOperand o s
    let r := s.cpu.a ^^^ s.cpu.fetched
    (s.setA r).setP (setZN s.cpu.p r)) s

/-- ORA (R194). -/
def execOra (o : Operand) (s : State) : Host.Outcome State Fault Refusal :=
  runEntry (.ora o) true (fun s =>
    let s := fetchOperand o s
    let r := s.cpu.a ||| s.cpu.fetched
    (s.setA r).setP (setZN s.cpu.p r)) s

/-- BIT (R195): A is unchanged, and no page-cross cycle. -/
def execBit (o : Operand) (s : State) : Host.Outcome State Fault Refusal :=
  runEntry (.bit o) false (fun s =>
    let s := fetchOperand o s
    s.setP (bitStatus s.cpu.p s.cpu.a s.cpu.fetched)) s

/-- CMP (R196). -/
def execCmp (o : Operand) (s : State) : Host.Outcome State Fault Refusal :=
  runEntry (.cmp o) true (fun s =>
    let s := fetchOperand o s
    s.setP (compareStatus s.cpu.p s.cpu.a s.cpu.fetched)) s

/-- CPX (R197). -/
def execCpx (o : Operand) (s : State) : Host.Outcome State Fault Refusal :=
  runEntry (.cpx o) false (fun s =>
    let s := fetchOperand o s
    s.setP (compareStatus s.cpu.p s.cpu.x s.cpu.fetched)) s

/-- CPY (R198). -/
def execCpy (o : Operand) (s : State) : Host.Outcome State Fault Refusal :=
  runEntry (.cpy o) false (fun s =>
    let s := fetchOperand o s
    s.setP (compareStatus s.cpu.p s.cpu.y s.cpu.fetched)) s

/-- INC (R199): one read, then one write of the same address (40 R147). -/
def execInc (o : Operand) (s : State) : Host.Outcome State Fault Refusal :=
  runEntry (.inc o) false (fun s =>
    let s := fetchOperand o s
    let r := s.cpu.fetched + 1
    let s := memWrite s.cpu.addrAbs r s
    s.setP (setZN s.cpu.p r)) s

/-- DEC (R200): one read, then one write of the same address (40 R147). -/
def execDec (o : Operand) (s : State) : Host.Outcome State Fault Refusal :=
  runEntry (.dec o) false (fun s =>
    let s := fetchOperand o s
    let r := s.cpu.fetched - 1
    let s := memWrite s.cpu.addrAbs r s
    s.setP (setZN s.cpu.p r)) s

/-- INX (R201). -/
def execInx (s : State) : Host.Outcome State Fault Refusal :=
  runEntry .inx false (fun s =>
    let r := s.cpu.x + 1
    (s.setX r).setP (setZN s.cpu.p r)) s

/-- INY (R202). -/
def execIny (s : State) : Host.Outcome State Fault Refusal :=
  runEntry .iny false (fun s =>
    let r := s.cpu.y + 1
    (s.setY r).setP (setZN s.cpu.p r)) s

/-- DEX (R203). -/
def execDex (s : State) : Host.Outcome State Fault Refusal :=
  runEntry .dex false (fun s =>
    let r := s.cpu.x - 1
    (s.setX r).setP (setZN s.cpu.p r)) s

/-- DEY (R204). -/
def execDey (s : State) : Host.Outcome State Fault Refusal :=
  runEntry .dey false (fun s =>
    let r := s.cpu.y - 1
    (s.setY r).setP (setZN s.cpu.p r)) s

end Sys2Proof.Machine
end

