-- ==== Sys2Proof/Machine/Control.lean ====
section
/-!
DEFINITION. Branches, jumps, subroutines, BRK and RTI (44_control_transfer.md R230 to R243).
-/

namespace Sys2Proof.Machine

open Sys2Proof

/-- `Branch(cond)` (R230): a taken branch adds its cycles itself and leaves the target in `addr_abs`. -/
def branch (cond : Bool) (s : State) : State :=
  if cond then
    let target := s.cpu.pc + s.cpu.addrRel
    let s := s.setCycles (s.cpu.cycles + 1 + (pageCrossed s.cpu.pc target).toNat)
    (s.setAddrAbs target).setPc target
  else s

/-- BCC (R231). -/
def execBcc (rel : Byte) (s : State) : Host.Outcome State Fault Refusal :=
  runEntry (.bcc rel) false (fun s => branch (!flag s.cpu.p bitC) s) s

/-- BCS (R232). -/
def execBcs (rel : Byte) (s : State) : Host.Outcome State Fault Refusal :=
  runEntry (.bcs rel) false (fun s => branch (flag s.cpu.p bitC) s) s

/-- BEQ (R233). -/
def execBeq (rel : Byte) (s : State) : Host.Outcome State Fault Refusal :=
  runEntry (.beq rel) false (fun s => branch (flag s.cpu.p bitZ) s) s

/-- BNE (R234). -/
def execBne (rel : Byte) (s : State) : Host.Outcome State Fault Refusal :=
  runEntry (.bne rel) false (fun s => branch (!flag s.cpu.p bitZ) s) s

/-- BMI (R235). -/
def execBmi (rel : Byte) (s : State) : Host.Outcome State Fault Refusal :=
  runEntry (.bmi rel) false (fun s => branch (flag s.cpu.p bitN) s) s

/-- BPL (R236). -/
def execBpl (rel : Byte) (s : State) : Host.Outcome State Fault Refusal :=
  runEntry (.bpl rel) false (fun s => branch (!flag s.cpu.p bitN) s) s

/-- BVC (R237). -/
def execBvc (rel : Byte) (s : State) : Host.Outcome State Fault Refusal :=
  runEntry (.bvc rel) false (fun s => branch (!flag s.cpu.p bitV) s) s

/-- BVS (R238). -/
def execBvs (rel : Byte) (s : State) : Host.Outcome State Fault Refusal :=
  runEntry (.bvs rel) false (fun s => branch (flag s.cpu.p bitV) s) s

/-- JMP (R239). -/
def execJmp (o : Operand) (s : State) : Host.Outcome State Fault Refusal :=
  runEntry (.jmp o) false (fun s => s.setPc s.cpu.addrAbs) s

/-- JSR (R240): it pushes the address of its own last byte. -/
def execJsr (addr : Word) (s : State) : Host.Outcome State Fault Refusal :=
  runEntry (.jsr addr) false (fun s =>
    let s := pushWord (s.cpu.pc - 1) (s.setPc (s.cpu.pc - 1))
    s.setPc s.cpu.addrAbs) s

/-- RTS (R241): it adds 1 to the popped address (C1). -/
def execRts (s : State) : Host.Outcome State Fault Refusal :=
  runEntry .rts false (fun s =>
    let r := popWord s
    r.2.setPc (r.1 + 1)) s

/-- BRK (R242): PC is already the BRK address + 2; the pushed copy of P has B and U set. -/
def execBrk (s : State) : Host.Outcome State Fault Refusal :=
  runEntry .brk false (fun s =>
    takeInterrupt (pushedByInstruction s.cpu.p) (putBit s.cpu.p bitB false) irqVector s) s

/-- RTI (R243): no +1; U is forced again at the end of the clock (R143). -/
def execRti (s : State) : Host.Outcome State Fault Refusal :=
  runEntry .rti false (fun s => returnFromInterrupt s) s

end Sys2Proof.Machine
end

