-- ==== Sys2Proof/Machine/LoadStore.lean ====
section
/-!
DEFINITION. Load and store instructions (41_load_store.md R180 to R185).
-/

namespace Sys2Proof.Machine

open Sys2Proof

/-- LDA (R180). -/
def execLda (o : Operand) (s : State) : Host.Outcome State Fault Refusal :=
  runEntry (.lda o) true (fun s =>
    let s := fetchOperand o s
    (s.setA s.cpu.fetched).setP (setZN s.cpu.p s.cpu.fetched)) s

/-- LDX (R181). -/
def execLdx (o : Operand) (s : State) : Host.Outcome State Fault Refusal :=
  runEntry (.ldx o) true (fun s =>
    let s := fetchOperand o s
    (s.setX s.cpu.fetched).setP (setZN s.cpu.p s.cpu.fetched)) s

/-- LDY (R182). -/
def execLdy (o : Operand) (s : State) : Host.Outcome State Fault Refusal :=
  runEntry (.ldy o) true (fun s =>
    let s := fetchOperand o s
    (s.setY s.cpu.fetched).setP (setZN s.cpu.p s.cpu.fetched)) s

/-- STA (R183): no read of the target. -/
def execSta (o : Operand) (s : State) : Host.Outcome State Fault Refusal :=
  runEntry (.sta o) false (fun s => memWrite s.cpu.addrAbs s.cpu.a s) s

/-- STX (R184). -/
def execStx (o : Operand) (s : State) : Host.Outcome State Fault Refusal :=
  runEntry (.stx o) false (fun s => memWrite s.cpu.addrAbs s.cpu.x s) s

/-- STY (R185). -/
def execSty (o : Operand) (s : State) : Host.Outcome State Fault Refusal :=
  runEntry (.sty o) false (fun s => memWrite s.cpu.addrAbs s.cpu.y s) s

end Sys2Proof.Machine
end

