-- ==== Sys2Proof/Machine/Shift.lean ====
section
/-!
DEFINITION. Shift and rotate instructions (43_shift_rotate.md R220 to R223).
-/

namespace Sys2Proof.Machine

open Sys2Proof

/-- Flags, then write-back: the end the four shifts share (43_shift_rotate.md). -/
def finishShift (o : Operand) (r : Alu) (s : State) : State := writeBack o r.result (s.setP r.status)

/-- ASL (R220). -/
def execAsl (o : Operand) (s : State) : Host.Outcome State Fault Refusal :=
  runEntry (.asl o) false (fun s =>
    let s := fetchOperand o s
    finishShift o (asl s.cpu.p s.cpu.fetched) s) s

/-- LSR (R221). -/
def execLsr (o : Operand) (s : State) : Host.Outcome State Fault Refusal :=
  runEntry (.lsr o) false (fun s =>
    let s := fetchOperand o s
    finishShift o (lsr s.cpu.p s.cpu.fetched) s) s

/-- ROL (R222). -/
def execRol (o : Operand) (s : State) : Host.Outcome State Fault Refusal :=
  runEntry (.rol o) false (fun s =>
    let s := fetchOperand o s
    finishShift o (rol s.cpu.p s.cpu.fetched) s) s

/-- ROR (R223). -/
def execRor (o : Operand) (s : State) : Host.Outcome State Fault Refusal :=
  runEntry (.ror o) false (fun s =>
    let s := fetchOperand o s
    finishShift o (ror s.cpu.p s.cpu.fetched) s) s

end Sys2Proof.Machine
end

