-- ==== Sys2Proof/Machine/StackFlags.lean ====
section
/-!
DEFINITION. Stack, flag, transfer, NOP and INVALID instructions (45_stack_flags_transfer.md R260 to R278).
-/

namespace Sys2Proof.Machine

open Sys2Proof

/-- PHA (R260). -/
def execPha (s : State) : Host.Outcome State Fault Refusal :=
  runEntry .pha false (fun s => push s.cpu.a s) s

/-- PHP (R261): the live B and U are cleared after the push. -/
def execPhp (s : State) : Host.Outcome State Fault Refusal :=
  runEntry .php false (fun s =>
    let s := push (pushedByInstruction s.cpu.p) s
    (s.setFlag bitB false).setFlag bitU false) s

/-- PLA (R262). -/
def execPla (s : State) : Host.Outcome State Fault Refusal :=
  runEntry .pla false (fun s =>
    let r := pop s
    (r.2.setA r.1).setP (setZN r.2.cpu.p r.1)) s

/-- PLP (R263): B is loaded as it stands. -/
def execPlp (s : State) : Host.Outcome State Fault Refusal :=
  runEntry .plp false (fun s =>
    let r := pop s
    r.2.setP (putBit r.1 bitU true)) s

/-- CLC (R264). -/
def execClc (s : State) : Host.Outcome State Fault Refusal :=
  runEntry .clc false (fun s => s.setFlag bitC false) s

/-- CLD (R265). -/
def execCld (s : State) : Host.Outcome State Fault Refusal :=
  runEntry .cld false (fun s => s.setFlag bitD false) s

/-- CLI (R266). -/
def execCli (s : State) : Host.Outcome State Fault Refusal :=
  runEntry .cli false (fun s => s.setFlag bitI false) s

/-- CLV (R267). -/
def execClv (s : State) : Host.Outcome State Fault Refusal :=
  runEntry .clv false (fun s => s.setFlag bitV false) s

/-- SEC (R268). -/
def execSec (s : State) : Host.Outcome State Fault Refusal :=
  runEntry .sec false (fun s => s.setFlag bitC true) s

/-- SED (R269). -/
def execSed (s : State) : Host.Outcome State Fault Refusal :=
  runEntry .sed false (fun s => s.setFlag bitD true) s

/-- SEI (R270). -/
def execSei (s : State) : Host.Outcome State Fault Refusal :=
  runEntry .sei false (fun s => s.setFlag bitI true) s

/-- TAX (R271). -/
def execTax (s : State) : Host.Outcome State Fault Refusal :=
  runEntry .tax false (fun s => (s.setX s.cpu.a).setP (setZN s.cpu.p s.cpu.a)) s

/-- TAY (R272). -/
def execTay (s : State) : Host.Outcome State Fault Refusal :=
  runEntry .tay false (fun s => (s.setY s.cpu.a).setP (setZN s.cpu.p s.cpu.a)) s

/-- TSX (R273). -/
def execTsx (s : State) : Host.Outcome State Fault Refusal :=
  runEntry .tsx false (fun s => (s.setX s.cpu.sp).setP (setZN s.cpu.p s.cpu.sp)) s

/-- TXA (R274). -/
def execTxa (s : State) : Host.Outcome State Fault Refusal :=
  runEntry .txa false (fun s => (s.setA s.cpu.x).setP (setZN s.cpu.p s.cpu.x)) s

/-- TXS (R275): no flag. -/
def execTxs (s : State) : Host.Outcome State Fault Refusal :=
  runEntry .txs false (fun s => s.setSp s.cpu.x) s

/-- TYA (R276). -/
def execTya (s : State) : Host.Outcome State Fault Refusal :=
  runEntry .tya false (fun s => (s.setA s.cpu.y).setP (setZN s.cpu.p s.cpu.y)) s

/-- NOP (R277). -/
def execNop (s : State) : Host.Outcome State Fault Refusal :=
  runEntry .nop false (fun s => s) s

/-- INVALID (R278): one byte, no effect but PC, the cycle count and the latch the IMP mode fills. -/
def execInvalid (op : Byte) (s : State) : Host.Outcome State Fault Refusal :=
  runEntry (.invalid op) false (fun s => s) s

end Sys2Proof.Machine
end

