-- ==== Sys2Proof/Machine/Dispatch.lean ====
section
/-!
DEFINITION. The meaning of every instruction, one arm per constructor. `exec i s` is the instruction's
part of the CPU clock that fetches it (40_pipeline_addressing.md R140): `s` has PC at the opcode byte,
the instruction's bytes have been read, and `cycles` ends as the instruction's whole cost (R142).
-/

namespace Sys2Proof.Machine

open Sys2Proof

def exec (i : Instr) (s : State) : Host.Outcome State Fault Refusal :=
  match i with
  | .lda o => Sys2Proof.Machine.execLda o s
  | .ldx o => Sys2Proof.Machine.execLdx o s
  | .ldy o => Sys2Proof.Machine.execLdy o s
  | .sta o => Sys2Proof.Machine.execSta o s
  | .stx o => Sys2Proof.Machine.execStx o s
  | .sty o => Sys2Proof.Machine.execSty o s
  | .adc o => Sys2Proof.Machine.execAdc o s
  | .sbc o => Sys2Proof.Machine.execSbc o s
  | .and o => Sys2Proof.Machine.execAnd o s
  | .eor o => Sys2Proof.Machine.execEor o s
  | .ora o => Sys2Proof.Machine.execOra o s
  | .bit o => Sys2Proof.Machine.execBit o s
  | .cmp o => Sys2Proof.Machine.execCmp o s
  | .cpx o => Sys2Proof.Machine.execCpx o s
  | .cpy o => Sys2Proof.Machine.execCpy o s
  | .inc o => Sys2Proof.Machine.execInc o s
  | .dec o => Sys2Proof.Machine.execDec o s
  | .inx => Sys2Proof.Machine.execInx s
  | .iny => Sys2Proof.Machine.execIny s
  | .dex => Sys2Proof.Machine.execDex s
  | .dey => Sys2Proof.Machine.execDey s
  | .asl o => Sys2Proof.Machine.execAsl o s
  | .lsr o => Sys2Proof.Machine.execLsr o s
  | .rol o => Sys2Proof.Machine.execRol o s
  | .ror o => Sys2Proof.Machine.execRor o s
  | .bcc r => Sys2Proof.Machine.execBcc r s
  | .bcs r => Sys2Proof.Machine.execBcs r s
  | .beq r => Sys2Proof.Machine.execBeq r s
  | .bne r => Sys2Proof.Machine.execBne r s
  | .bmi r => Sys2Proof.Machine.execBmi r s
  | .bpl r => Sys2Proof.Machine.execBpl r s
  | .bvc r => Sys2Proof.Machine.execBvc r s
  | .bvs r => Sys2Proof.Machine.execBvs r s
  | .jmp o => Sys2Proof.Machine.execJmp o s
  | .jsr w => Sys2Proof.Machine.execJsr w s
  | .rts => Sys2Proof.Machine.execRts s
  | .brk => Sys2Proof.Machine.execBrk s
  | .rti => Sys2Proof.Machine.execRti s
  | .pha => Sys2Proof.Machine.execPha s
  | .php => Sys2Proof.Machine.execPhp s
  | .pla => Sys2Proof.Machine.execPla s
  | .plp => Sys2Proof.Machine.execPlp s
  | .clc => Sys2Proof.Machine.execClc s
  | .cld => Sys2Proof.Machine.execCld s
  | .cli => Sys2Proof.Machine.execCli s
  | .clv => Sys2Proof.Machine.execClv s
  | .sec => Sys2Proof.Machine.execSec s
  | .sed => Sys2Proof.Machine.execSed s
  | .sei => Sys2Proof.Machine.execSei s
  | .tax => Sys2Proof.Machine.execTax s
  | .tay => Sys2Proof.Machine.execTay s
  | .tsx => Sys2Proof.Machine.execTsx s
  | .txa => Sys2Proof.Machine.execTxa s
  | .txs => Sys2Proof.Machine.execTxs s
  | .tya => Sys2Proof.Machine.execTya s
  | .nop => Sys2Proof.Machine.execNop s
  | .invalid op => Sys2Proof.Machine.execInvalid op s

end Sys2Proof.Machine
end

