-- ==== Sys2Proof/Machine/Ppu.lean ====
section
/-!
DEFINITION. The PPU's rendering state machine: one PPU clock (60_exceptions.md R340 to R357).
-/

namespace Sys2Proof.Machine

open Sys2Proof

/-- `RenderingEnabled()` (R356). -/
def Ppu.renderingEnabled (p : Ppu) : Bool := p.renderBackground || p.renderSprites

/-- `VblankClear()` (R342). -/
def vblankClear (p : Ppu) : Ppu := { p with verticalBlank := false }

/-- `VblankSet()` (R351). -/
def vblankSet (p : Ppu) : Ppu :=
  { p with verticalBlank := true, nmiRequest := p.enableNmi || p.nmiRequest }

/-- The high byte of a shifter kept, its low byte replaced (R344). -/
def reload (shifter : Word) (b : Byte) : Word := (shifter &&& 0xFF00) ||| zext16 b

/-- `LoadBackgroundShifters()` (R344). -/
def loadBackgroundShifters (p : Ppu) : Ppu :=
  { p with
    bgShifterPatternLo := reload p.bgShifterPatternLo p.bgNextTileLsb
    bgShifterPatternHi := reload p.bgShifterPatternHi p.bgNextTileMsb
    bgShifterAttribLo :=
      reload p.bgShifterAttribLo (if p.bgNextTileAttrib.getLsbD 0 then 0xFF else 0x00)
    bgShifterAttribHi :=
      reload p.bgShifterAttribHi (if p.bgNextTileAttrib.getLsbD 1 then 0xFF else 0x00) }

/-- `UpdateShifters()` (R345). -/
def updateShifters (p : Ppu) : Ppu :=
  if p.renderBackground then
    { p with
      bgShifterPatternLo := p.bgShifterPatternLo <<< 1
      bgShifterPatternHi := p.bgShifterPatternHi <<< 1
      bgShifterAttribLo := p.bgShifterAttribLo <<< 1
      bgShifterAttribHi := p.bgShifterAttribHi <<< 1 }
  else p

/-- The name-table address of the tile `v` points at (R346). -/
def tileIdAddr (v : BitVec 15) : Word := 0x2000 ||| (v.setWidth 16 &&& 0x0FFF)

/-- `FetchTileId()` (R346). -/
def fetchTileId (cart : Option Cartridge) (p : Ppu) : Ppu :=
  { p with bgNextTileId := ppuRead cart p (tileIdAddr p.v) }

/-- The attribute address of the tile `v` points at (R347). -/
def attributeAddr (v : BitVec 15) : Word :=
  0x23C0 ||| ((BitVec.ofBool (nametableY v)).setWidth 16 <<< 11)
    ||| ((BitVec.ofBool (nametableX v)).setWidth 16 <<< 10)
    ||| (((coarseY v).setWidth 16 >>> 2) <<< 3) ||| ((coarseX v).setWidth 16 >>> 2)

/-- `FetchAttribute()` (R347). -/
def fetchAttribute (cart : Option Cartridge) (p : Ppu) : Ppu :=
  let a := ppuRead cart p (attributeAddr p.v)
  let a := if (coarseY p.v).getLsbD 1 then a >>> 4 else a
  let a := if (coarseX p.v).getLsbD 1 then a >>> 2 else a
  { p with bgNextTileAttrib := a &&& 0x03 }

/-- The pattern-table address of plane 0 of the row `v` points at (R348). -/
def patternAddr (p : Ppu) : Word :=
  ((BitVec.ofBool p.patternBackground).setWidth 16 <<< 12) + (zext16 p.bgNextTileId <<< 4)
    + (fineY p.v).setWidth 16

/-- `FetchPatternLo()` (R348). -/
def fetchPatternLo (cart : Option Cartridge) (p : Ppu) : Ppu :=
  { p with bgNextTileLsb := ppuRead cart p (patternAddr p) }

/-- `FetchPatternHi()` (R349). -/
def fetchPatternHi (cart : Option Cartridge) (p : Ppu) : Ppu :=
  { p with bgNextTileMsb := ppuRead cart p (patternAddr p + 8) }

/-- `v` after `IncrementScrollX()` (R355). -/
def scrolledX (v : BitVec 15) : BitVec 15 :=
  if coarseX v = 31 then vramAddr (fineY v) (nametableY v) (!nametableX v) (coarseY v) 0
  else vramAddr (fineY v) (nametableY v) (nametableX v) (coarseY v) (coarseX v + 1)

/-- `v` after `IncrementScrollY()` (R355). -/
def scrolledY (v : BitVec 15) : BitVec 15 :=
  if (fineY v).toNat < 7 then
    vramAddr (fineY v + 1) (nametableY v) (nametableX v) (coarseY v) (coarseX v)
  else if coarseY v = 29 then vramAddr 0 (!nametableY v) (nametableX v) 0 (coarseX v)
  else if coarseY v = 31 then vramAddr 0 (nametableY v) (nametableX v) 0 (coarseX v)
  else vramAddr 0 (nametableY v) (nametableX v) (coarseY v + 1) (coarseX v)

/-- `v` after `TransferAddressX()` (R355). -/
def transferredX (v t : BitVec 15) : BitVec 15 :=
  vramAddr (fineY v) (nametableY v) (nametableX t) (coarseY v) (coarseX t)

/-- `v` after `TransferAddressY()` (R355). -/
def transferredY (v t : BitVec 15) : BitVec 15 :=
  vramAddr (fineY t) (nametableY t) (nametableX v) (coarseY t) (coarseX v)

/-- `IncrementScrollX()` (R355). -/
def incrementScrollX (p : Ppu) : Ppu := if p.renderingEnabled then { p with v := scrolledX p.v } else p

/-- `IncrementScrollY()` (R355). -/
def incrementScrollY (p : Ppu) : Ppu := if p.renderingEnabled then { p with v := scrolledY p.v } else p

/-- `TransferAddressX()` (R355). -/
def transferAddressX (p : Ppu) : Ppu :=
  if p.renderingEnabled then { p with v := transferredX p.v p.t } else p

/-- `TransferAddressY()` (R355). -/
def transferAddressY (p : Ppu) : Ppu :=
  if p.renderingEnabled then { p with v := transferredY p.v p.t } else p

/-- The step of the fetch sequence at a phase `(cycle - 1) mod 8` (R340). -/
def fetchPhase (cart : Option Cartridge) (phase : Nat) (p : Ppu) : Ppu :=
  if phase = 0 then fetchTileId cart (loadBackgroundShifters p)
  else if phase = 2 then fetchAttribute cart p
  else if phase = 4 then fetchPatternLo cart p
  else if phase = 6 then fetchPatternHi cart p
  else if phase = 7 then incrementScrollX p
  else p

/-- The fetch windows of a line (R343). -/
def inFetchWindow (cycle : Nat) : Bool :=
  decide ((2 ≤ cycle ∧ cycle ≤ 257) ∨ (321 ≤ cycle ∧ cycle ≤ 337))

/-- `EndOfLineEvents()` (R350). -/
def endOfLineEvents (cart : Option Cartridge) (scanline : Int) (cycle : Nat) (p : Ppu) : Ppu :=
  let p := if cycle = 256 then incrementScrollY p else p
  let p := if cycle = 257 then transferAddressX (loadBackgroundShifters p) else p
  let p := if cycle = 338 ∨ cycle = 340 then fetchTileId cart p else p
  if scanline = -1 ∧ 280 ≤ cycle ∧ cycle ≤ 304 then transferAddressY p else p

/-- What a PPU clock does on the pre-render and visible scanlines (R340). -/
def renderLine (cart : Option Cartridge) (scanline : Int) (cycle : Nat) (p : Ppu) : Ppu :=
  let p := if scanline = -1 ∧ cycle = 1 then vblankClear p else p
  let p := if inFetchWindow cycle then fetchPhase cart ((cycle - 1) % 8) (updateShifters p) else p
  endOfLineEvents cart scanline cycle p

/-- The background pixel of a shifter pair: bit `fine_x` from the left (R352). -/
def shifterBits (hi lo : Word) (fineX : BitVec 3) : BitVec 2 :=
  let mux := (0x8000 : Word) >>> fineX.toNat
  BitVec.ofBool (hi &&& mux != 0) ++ BitVec.ofBool (lo &&& mux != 0)

/-- `ComposePixel()`: the 6-bit colour (R352). -/
def composeColour (cart : Option Cartridge) (p : Ppu) : BitVec 6 :=
  let pixel : BitVec 2 :=
    if p.renderBackground then shifterBits p.bgShifterPatternHi p.bgShifterPatternLo p.fineX else 0
  let palette : BitVec 2 :=
    if p.renderBackground then shifterBits p.bgShifterAttribHi p.bgShifterAttribLo p.fineX else 0
  (ppuRead cart p (0x3F00 + (palette.setWidth 16 <<< 2) + pixel.setWidth 16) &&& 0x3F).setWidth 6

/-- The output to the pixel sink at a position (R353). -/
def emitPixel (cart : Option Cartridge) (scanline : Int) (cycle : Nat) (p : Ppu) : Ppu :=
  { p with
    pixel :=
      if 0 ≤ scanline ∧ scanline ≤ 239 ∧ 1 ≤ cycle ∧ cycle ≤ 256 then
        some { x := cycle - 1, y := scanline.toNat, colour := composeColour cart p }
      else none }

/-- `AdvanceCounters()` (R354). -/
def advanceCounters (p : Ppu) : Ppu :=
  if p.cycle + 1 ≥ 341 then
    if p.scanline + 1 ≥ 261 then { p with cycle := 0, scanline := -1, frameCompleted := true }
    else { p with cycle := 0, scanline := p.scanline + 1 }
  else { p with cycle := p.cycle + 1 }

/-- `PPU.clock()` on the PPU, with the cartridge it reads (R340). Every test uses `scanline` and `cycle`
as they are on entry. -/
def ppuTick (cart : Option Cartridge) (p : Ppu) : Ppu :=
  let scanline := p.scanline
  let cycle := p.cycle
  let p := if -1 ≤ scanline ∧ scanline ≤ 239 then renderLine cart scanline cycle p else p
  let p := if scanline = 241 ∧ cycle = 1 then vblankSet p else p
  advanceCounters (emitPixel cart scanline cycle p)

/-- `PPU.clock()` (R340): it changes the PPU alone. -/
def ppuClock (s : State) : State := s.setPpu (ppuTick s.cart s.ppu)

end Sys2Proof.Machine
end

