-- ==== Sys2Proof/Machine/Clock.lean ====
section
/-!
DEFINITION. The CPU clock and the bus clock (40_pipeline_addressing.md R140, 60_exceptions.md R313), and
where a program is placed so that the next bus call fetches it.
-/

namespace Sys2Proof.Machine

open Sys2Proof

/-- `CPU.clock()` (R140): at an instruction boundary a whole instruction runs; every call counts down. -/
def cpuClock (s : State) : Host.Outcome State Fault Refusal :=
  if s.cpu.cycles = 0 then
    let f := fetchInstr s
    match exec f.1 f.2 with
    | .next t => .next (countDown t)
    | .fault r => .fault r
    | .refused r => .refused r
  else .next (countDown s)

/-- The CPU's phase: every third call (R313, R314). -/
def cpuPhase (s : State) : Bool := s.sysClock % 3 == 0

/-- The end of a bus call: NMI forwarding, then the system clock (R313). -/
def endBusCall (s : State) : State := advanceSysClock (forwardNmi s)

/-- `Bus.clock()` (R313): the PPU, the CPU in its phase, the NMI, the system clock. -/
def busClock (s : State) : Host.Outcome State Fault Refusal :=
  let s := ppuClock s
  match if cpuPhase s then cpuClock s else .next s with
  | .next t => .next (endBusCall t)
  | .fault r => .fault r
  | .refused r => .refused r

/-- Puts a byte where a CPU fetch of `addr` reads it: RAM, or the backing array; an address in the PPU's
window holds no byte. -/
def placeByte (addr : Word) (b : Byte) (s : State) : State :=
  if inRam addr then s.setRam (s.ram.write (ramIndex addr) b)
  else if inPpuWindow addr then s
  else s.setMem (s.mem.write addr.toNat b)

/-- Whether one of the three addresses from `pc` on lies in the PPU's window. -/
def touchesPpuWindow (pc : Word) : Bool :=
  inPpuWindow pc || inPpuWindow (pc + 1) || inPpuWindow (pc + 2)

/-- Places three bytes at PC and puts the machine where the next bus call fetches them: an instruction
boundary in the CPU's phase. A PC at the PPU's window, which holds no bytes, moves to 0x0000. Log 6. -/
def placeProgram (b0 b1 b2 : Byte) (s : State) : State :=
  let s := if touchesPpuWindow s.cpu.pc then s.setPc 0x0000 else s
  let s := placeByte s.cpu.pc b0 s
  let s := placeByte (s.cpu.pc + 1) b1 s
  let s := placeByte (s.cpu.pc + 2) b2 s
  let s := s.setCycles 0
  { s with sysClock := 3 * ((s.sysClock + 2) / 3) }

end Sys2Proof.Machine
end

