-- ==== Sys2Proof/Machine/Step.lean ====
section
/-!
DEFINITION. One machine step is one call of `Bus.clock()` (00_scope.md R7).
-/

namespace Sys2Proof.Machine

open Sys2Proof

/-- One machine step (R7, R313). -/
def step (s : State) : Host.Outcome State Fault Refusal := busClock s

/-- `s` with an instruction word placed where the next step fetches it (log 6): the bits are numbered as
opcode_table.json numbers them, and those above `nbits` are 0. -/
def State.withFetchWord (s : State) (nbits w : Nat) : State :=
  let w := w % 2 ^ nbits
  placeProgram (BitVec.ofNat 8 w) (BitVec.ofNat 8 (w / 2 ^ 8)) (BitVec.ofNat 8 (w / 2 ^ 16)) s

end Sys2Proof.Machine
end

