-- ==== Sys2Proof/Machine/Cartridge.lean ====
section
/-!
DEFINITION. The ROM image parser and the cartridge hooks of mapper 0 (20_memory.md R85 to R99).
-/

namespace Sys2Proof.Machine

open Sys2Proof

/-- Byte `i` of a ROM image. -/
def imageByte (image : List Byte) (i : Nat) : Byte := image.getD i 0

/-- The magic bytes `4E 45 53 1A` (R85). -/
def magic : List Byte := [0x4E, 0x45, 0x53, 0x1A]

/-- The mapper id of a header (R88). -/
def mapperId (image : List Byte) : Byte :=
  (imageByte image 7 &&& 0xF0) ||| (imageByte image 6 >>> 4)

/-- The mirroring of a header (R89). -/
def headerMirroring (image : List Byte) : Mirroring :=
  if (imageByte image 6).getLsbD 0 then .vertical else .horizontal

/-- Bytes of PRG ROM: 16 KiB a bank (R87, R91). -/
def prgSize (image : List Byte) : Nat := 16384 * (imageByte image 4).toNat

/-- Bytes of CHR ROM: 8 KiB a bank (R87, R91). -/
def chrSize (image : List Byte) : Nat := 8192 * (imageByte image 5).toNat

/-- `image[start .. start + n - 1]`. -/
def imageSlice (image : List Byte) (start n : Nat) : List Byte := (image.drop start).take n

/-- `Load(image)` (R85 to R93). All checks come before anything is built (R94). `chrDraw` is the
power-on content of CHR RAM, the draw of R93 (bytes past its end are 0; log 4). -/
def loadCartridge (image chrDraw : List Byte) : Except LoadError Cartridge :=
  if image.length < 16 ∨ image.take 4 ≠ magic then .error .badHeader
  else if mapperId image ≠ 0 then .error .unsupportedMapper
  else if imageByte image 4 ≠ 1 ∧ imageByte image 4 ≠ 2 then .error .prgBankCount
  else if image.length < 16 + prgSize image + chrSize image then .error .truncated
  else
    .ok
      { prgBanks := imageByte image 4
        chrBanks := imageByte image 5
        mapper := mapperId image
        mirroring := headerMirroring image
        prg := Memory.ofBytes 0 (imageSlice image 16 (prgSize image))
        chr :=
          if imageByte image 5 = 0 then Memory.ofBytes 0 (chrDraw.take 8192)
          else Memory.ofBytes 0 (imageSlice image (16 + prgSize image) (chrSize image)) }

/-- The backing array with a cartridge's program image installed: entry `0x8000 + i` holds
`prg[i mod (16384 * prg_banks)]` and no other entry is set (R92, R99). -/
def programImage (c : Cartridge) : Memory :=
  Memory.ofBytes 0x8000
    ((List.range 0x8000).map fun i => c.prg.read (i % (16384 * c.prgBanks.toNat)))

/-- Installs a cartridge and sets PC to the reset vector (R99). -/
def installCartridge (c : Cartridge) (s : State) : State :=
  let s := (s.setMem (programImage c)).setCart (some c)
  let vector := memRead16 resetVector s
  vector.2.setPc vector.1

/-- `insert_cartridge(image)` (R99); a rejected image changes nothing (R94). -/
def insertCartridge (image chrDraw : List Byte) (s : State) : Except LoadError State :=
  match loadCartridge image chrDraw with
  | .ok c => .ok (installCartridge c s)
  | .error e => .error e

/-- The hook `cpu_read(addr)`: none when the address is not claimed (R95). -/
def cartCpuRead (c : Cartridge) (addr : Word) : Option Byte :=
  if 0x8000 ≤ addr.toNat then
    some (c.prg.read (addr.toNat &&& (if c.prgBanks.toNat > 1 then 0x7FFF else 0x3FFF)))
  else none

/-- The hook `cpu_write(addr, data)`: it claims the range and writes nothing; the Bus never calls it
(R96). -/
def cartCpuWrite (c : Cartridge) (addr : Word) : Bool × Cartridge := (decide (0x8000 ≤ addr.toNat), c)

end Sys2Proof.Machine
end

