-- ==== Sys2Proof/Machine/HostOps.lean ====
section
/-!
DEFINITION. Power-on and the driver's operations (60_exceptions.md R316, R317; 10_state.md R63;
70_reset_and_hazards.md R401 to R403). The driver calls them one at a time, between bus calls (D41).
-/

namespace Sys2Proof.Machine

open Sys2Proof

/-- The draws of power-on (00_scope.md R6): CPU_POWERON, RAM_INIT and PPU_MEM_POWERON. A list stands for
the bytes from index 0; bytes past its end are 0 and bytes past the array's end are not used. -/
structure PowerOn where
  cpu : Cpu
  ram : List Byte
  nt0 : List Byte
  nt1 : List Byte
  palette : List Byte
  deriving DecidableEq, Repr

/-- The power-on state for given draws and parameters (R63, R401). -/
def powerOn (params : Params) (d : PowerOn) : State where
  cpu := d.cpu
  ppu :=
    { State.reset.ppu with
      nt0 := Memory.ofBytes 0 (d.nt0.take 1024)
      nt1 := Memory.ofBytes 0 (d.nt1.take 1024)
      palette := Memory.ofBytes 0 (d.palette.take 32) }
  ram := Memory.ofBytes 0 (d.ram.take 2048)
  mem := []
  sysClock := 0
  cart := none
  params := params

/-- Every draw 0: the run `State.reset` stands for. -/
def PowerOn.zero : PowerOn where
  cpu :=
    { a := 0, x := 0, y := 0, sp := 0, p := 0, pc := 0, addrAbs := 0, addrRel := 0, fetched := 0
      opcode := 0, cycles := 0 }
  ram := []
  nt0 := []
  nt1 := []
  palette := []

/-- The driver's operations that change the machine (R316). `chrDraw` is the power-on content of CHR RAM
(R93). -/
inductive HostOp where
  | insertCartridge (image chrDraw : List Byte)
  | clock
  | reset
  | irq
  | nmi
  | clearFrameCompleted
  deriving DecidableEq, Repr

/-- Clears `frame_completed` (R316, R61). -/
def clearFrameCompleted (s : State) : State := s.setPpu { s.ppu with frameCompleted := false }

/-- One driver operation. A rejected cartridge is the one fault; after it there is no machine state
(R12, R94). -/
def hostOp (op : HostOp) (s : State) : Host.Outcome State Fault Refusal :=
  match op with
  | .insertCartridge image chrDraw =>
    match insertCartridge image chrDraw s with
    | .ok t => .next t
    | .error e => .fault (.loadError e)
  | .clock => step s
  | .reset => .next (cpuReset s)
  | .irq => .next (irq s)
  | .nmi => .next (nmi s)
  | .clearFrameCompleted => .next (clearFrameCompleted s)

/-- A sequence of driver operations, in the order the host makes them (60 R310). -/
def runHost : List HostOp → State → Host.Outcome State Fault Refusal
  | [], s => .next s
  | op :: ops, s =>
    match hostOp op s with
    | .next t => runHost ops t
    | .fault r => .fault r
    | .refused r => .refused r

/-- The boot sequence up to the launch state: construct, insert the cartridge, reset (R403). -/
def boot (params : Params) (d : PowerOn) (image chrDraw : List Byte) :
    Host.Outcome State Fault Refusal :=
  runHost [.insertCartridge image chrDraw, .reset] (powerOn params d)

/-- `n` bus calls. -/
def busCalls (n : Nat) (s : State) : Host.Outcome State Fault Refusal :=
  runHost (List.replicate n .clock) s

/-- `do Bus.clock() while not stop`, at most `fuel` calls (R317; log 14). -/
def clockUntil (stop : State → Bool) : Nat → State → Option State
  | 0, _ => none
  | fuel + 1, s =>
    match step s with
    | .next t => if stop t then some t else clockUntil stop fuel t
    | .fault _ => none
    | .refused _ => none

/-- `StepInstruction()` (R317): clock until an opcode has been fetched, then until its cycles run out. -/
def stepInstruction (fuel : Nat) (s : State) : Option State :=
  (clockUntil (fun t => !complete t) fuel s).bind (clockUntil complete fuel)

/-- `StepFrame()` (R317): clock until the frame is complete, then clear the flag. -/
def stepFrame (fuel : Nat) (s : State) : Option State :=
  (clockUntil (fun t => t.ppu.frameCompleted) fuel s).map clearFrameCompleted

end Sys2Proof.Machine
end

