-- ==== Sys2Proof/Safety.lean ====
section
/-!
DEFINITION. The terms claims are stated in: what holds of every state of a run, the value and the side
effect of an operand read, the status byte from its flags, what a store changes, the lists of
10_state.md and 40_pipeline_addressing.md of which operations write what.
-/

namespace Sys2Proof.Machine

open Sys2Proof

/-! ### What holds of every state of a run -/

/-- A loaded cartridge: mapper 0, one or two PRG banks, memories canonical and of their size (R44 to R46). -/
structure Cartridge.Ok (c : Cartridge) : Prop where
  mapper : c.mapper = 0
  banks : c.prgBanks = 1 ∨ c.prgBanks = 2
  prgWf : c.prg.wf = true
  prgSize : c.prg.below (16384 * c.prgBanks.toNat) = true
  chrWf : c.chr.wf = true
  chrSize : c.chr.below (if c.chrBanks = 0 then 8192 else 8192 * c.chrBanks.toNat) = true

/-- The PPU: memories canonical and of their size, counters in range (R59), no sprite flag (R49), a
two-bit attribute (R57), a pixel on the screen (R353). -/
structure Ppu.Ok (p : Ppu) : Prop where
  nt0Wf : p.nt0.wf = true
  nt0Size : p.nt0.below 1024 = true
  nt1Wf : p.nt1.wf = true
  nt1Size : p.nt1.below 1024 = true
  paletteWf : p.palette.wf = true
  paletteSize : p.palette.below 32 = true
  scanline : -1 ≤ p.scanline ∧ p.scanline ≤ 260
  cycle : p.cycle ≤ 340
  noSprites : p.spriteOverflow = false ∧ p.spriteZeroHit = false
  attrib : p.bgNextTileAttrib.toNat ≤ 3
  pixel : ∀ q, p.pixel = some q → q.x < 256 ∧ q.y < 240

/-- The state between two host operations. -/
structure State.Ok (s : State) : Prop where
  params : s.params.ok = true
  cycles : s.cpu.cycles ≤ 10
  unused : flag s.cpu.p bitU = true
  ramWf : s.ram.wf = true
  ramSize : s.ram.below 2048 = true
  memWf : s.mem.wf = true
  memSize : s.mem.below 65536 = true
  ppu : s.ppu.Ok
  noNmi : s.ppu.nmiRequest = false
  cart : ∀ c, s.cart = some c → c.Ok

/-- The byte the cartridge puts at a CPU address from 0x4000 on: none below 0x8000, PRG above
(R75, R76, R92). -/
def romByte (cart : Option Cartridge) (addr : Nat) : Byte :=
  match cart with
  | some c => if addr < 0x8000 then 0x00 else c.prg.read ((addr - 0x8000) % (16384 * c.prgBanks.toNat))
  | none => 0x00

/-- The backing array holds the cartridge's program image, and nothing else a read can reach (R42, R76). -/
def RomInstalled (s : State) : Prop :=
  ∀ addr, 0x4000 ≤ addr → addr < 0x10000 → s.mem.read addr = romByte s.cart addr

/-- A state of some run: boot (R403), then any host operations. -/
def Reachable (s : State) : Prop :=
  ∃ params draws image chrDraw launch ops,
    params.ok = true ∧ boot params draws image chrDraw = .next launch ∧ runHost ops launch = .next s

/-! ### Operands -/

/-- The operand byte M of an operation that calls fetch(): A, the immediate, or the byte a read of the
effective address returns (R141). -/
def operandByte (o : Operand) (s : State) : Byte :=
  match o with
  | .imp => s.cpu.a
  | .imm b => b
  | .zp0 _ | .zpx _ | .zpy _ | .rel _ | .abs _ | .abx _ | .aby _ | .ind _ | .izx _ | .izy _ =>
    peek s (effAddr o s)

/-- The state after fetch() has made its one read, if any (R141, R148): the read can touch a PPU
register. -/
def afterOperandRead (o : Operand) (s : State) : State :=
  match o with
  | .imp => s
  | .imm _ => s
  | .zp0 _ | .zpx _ | .zpy _ | .rel _ | .abs _ | .abx _ | .aby _ | .ind _ | .izx _ | .izy _ =>
    (memRead (effAddr o s) s).2

/-- The index moves the address to another 256-byte page (R14, R157). -/
def otherPage (base target : Word) : Bool := decide (base.toNat / 256 ≠ target.toNat / 256)

/-- The address an operand form adds Y to after reading it from the zero page (R161). -/
def zeroPagePointer (z : Byte) (s : State) : Word :=
  word16 (peek s (zext16 (z + 1))) (peek s (zext16 z))

/-- The mode asks for the page-cross cycle: ABX, ABY and IZY only (R142). -/
def crossesPage (o : Operand) (s : State) : Bool :=
  match o with
  | .abx w => otherPage w (w + zext16 s.cpu.x)
  | .aby w => otherPage w (w + zext16 s.cpu.y)
  | .izy z => otherPage (zeroPagePointer z s) (zeroPagePointer z s + zext16 s.cpu.y)
  | .imp | .imm _ | .zp0 _ | .zpx _ | .zpy _ | .rel _ | .abs _ | .ind _ | .izx _ => false

/-- The operations that accept the page-cross cycle (R163). -/
def acceptsPageCross : List Op := [.adc, .and, .cmp, .eor, .lda, .ldx, .ldy, .ora, .sbc]

/-- The operations that read their operand through fetch() (R148). -/
def operandReaders : List Op :=
  [.lda, .ldx, .ldy, .adc, .sbc, .and, .eor, .ora, .bit, .cmp, .cpx, .cpy, .asl, .lsr, .rol, .ror,
    .inc, .dec]

/-- The operations that transfer control. -/
def controlTransfers : List Op :=
  [.bcc, .bcs, .beq, .bne, .bmi, .bpl, .bvc, .bvs, .jmp, .jsr, .rts, .brk, .rti]

/-- Whether a conditional branch is taken under a status byte (R231 to R238); false for every other
instruction. -/
def branchTaken (i : Instr) (p : Byte) : Bool :=
  match i.op with
  | .bcc => !flag p bitC | .bcs => flag p bitC
  | .beq => flag p bitZ | .bne => !flag p bitZ
  | .bmi => flag p bitN | .bpl => !flag p bitN
  | .bvc => !flag p bitV | .bvs => flag p bitV
  | _ => false

/-- The target of a branch at the PC of `s` (R246). -/
def branchTarget (rel : Byte) (s : State) : Word := s.cpu.pc + 2 + sext16 rel

/-- The cycles a taken branch adds: 1, or 2 to another page (R230). -/
def branchExtra (i : Instr) (s : State) : Nat :=
  match i.operand with
  | .rel r =>
    if branchTaken i s.cpu.p then (if otherPage (s.cpu.pc + 2) (branchTarget r s) then 2 else 1) else 0
  | .imp | .imm _ | .zp0 _ | .zpx _ | .zpy _ | .abs _ | .abx _ | .aby _ | .ind _ | .izx _ | .izy _ => 0

/-- The base counts that the Encoding lines of R180 to R277 print, by mode. -/
def encodingCycles (op : Op) : List (Mode × Nat) :=
  match op with
  | .lda | .adc | .sbc | .and | .eor | .ora | .cmp =>
    [(.imm, 2), (.zp0, 3), (.zpx, 4), (.abs, 4), (.abx, 4), (.aby, 4), (.izx, 6), (.izy, 5)]
  | .ldx => [(.imm, 2), (.zp0, 3), (.zpy, 4), (.abs, 4), (.aby, 4)]
  | .ldy => [(.imm, 2), (.zp0, 3), (.zpx, 4), (.abs, 4), (.abx, 4)]
  | .sta => [(.zp0, 3), (.zpx, 4), (.abs, 4), (.abx, 5), (.aby, 5), (.izx, 6), (.izy, 6)]
  | .stx => [(.zp0, 3), (.zpy, 4), (.abs, 4)]
  | .sty => [(.zp0, 3), (.zpx, 4), (.abs, 4)]
  | .bit => [(.zp0, 3), (.abs, 4)]
  | .cpx | .cpy => [(.imm, 2), (.zp0, 3), (.abs, 4)]
  | .inc | .dec => [(.zp0, 5), (.zpx, 6), (.abs, 6), (.abx, 7)]
  | .asl | .lsr | .rol | .ror => [(.imp, 2), (.zp0, 5), (.zpx, 6), (.abs, 6), (.abx, 7)]
  | .bcc | .bcs | .beq | .bne | .bmi | .bpl | .bvc | .bvs => [(.rel, 2)]
  | .jmp => [(.abs, 3), (.ind, 5)]
  | .jsr => [(.abs, 6)]
  | .rts | .rti => [(.imp, 6)]
  | .brk => [(.imm, 7)]
  | .pha | .php => [(.imp, 3)]
  | .pla | .plp => [(.imp, 4)]
  | .inx | .iny | .dex | .dey | .clc | .cld | .cli | .clv | .sec | .sed | .sei
  | .tax | .tay | .tsx | .txa | .txs | .tya | .nop => [(.imp, 2)]
  | .invalid => []

/-- The default counts of the 105 INVALID bytes: the cells `inv n` of R127, by `n`. -/
def invalidDefaults : List (Nat × List Byte) :=
  [ (2,
      [0x02, 0x0B, 0x12, 0x1A, 0x22, 0x2B, 0x32, 0x3A, 0x42, 0x4B, 0x52, 0x5A, 0x62, 0x6B,
      0x72, 0x7A, 0x80, 0x82, 0x89, 0x8B, 0x92, 0xAB, 0xB2, 0xC2, 0xCB, 0xD2, 0xDA, 0xE2,
      0xEB, 0xF2, 0xFA]),
    (3,
      [0x04, 0x44, 0x64, 0x87, 0xA7]),
    (4,
      [0x0C, 0x14, 0x1C, 0x34, 0x3C, 0x54, 0x5C, 0x74, 0x7C, 0x8F, 0x97, 0xAF, 0xB7, 0xBB,
      0xBF, 0xD4, 0xDC, 0xF4, 0xFC]),
    (5,
      [0x07, 0x27, 0x47, 0x67, 0x9B, 0x9C, 0x9E, 0x9F, 0xB3, 0xC7, 0xE7]),
    (6,
      [0x0F, 0x17, 0x2F, 0x37, 0x4F, 0x57, 0x6F, 0x77, 0x83, 0x93, 0xA3, 0xCF, 0xD7, 0xEF,
      0xF7]),
    (7,
      [0x1B, 0x1F, 0x3B, 0x3F, 0x5B, 0x5F, 0x7B, 0x7F, 0xDB, 0xDF, 0xFB, 0xFF]),
    (8,
      [0x03, 0x13, 0x23, 0x33, 0x43, 0x53, 0x63, 0x73, 0xC3, 0xD3, 0xE3, 0xF3]) ]

/-- `base_cycles` of an instruction (R142), from the lines above; for an INVALID byte the parameter
P_INVALID_CYCLES, with its default (R278, D7). -/
def baseOf (i : Instr) (s : State) : Nat :=
  match i with
  | .invalid op =>
    (s.params.invalidCycles.lookup op).getD
      (((invalidDefaults.find? fun e => e.2.contains op).map Prod.fst).getD 0)
  | _ => ((encodingCycles i.op).lookup i.mode).getD 0

/-- `cycles_total` of an instruction (R142). -/
def cyclesTotal (i : Instr) (s : State) : Nat :=
  baseOf i s + branchExtra i s
    + (if crossesPage i.operand s && acceptsPageCross.contains i.op then 1 else 0)

/-! ### Which operations write what (10_state.md R20 to R34) -/

/-- The accumulator shifts: IMP form. -/
def isAccumulatorShift (i : Instr) : Bool := [Op.asl, .lsr, .rol, .ror].contains i.op && i.mode == .imp

/-- R20 -/
def writesA (i : Instr) : Bool :=
  [Op.lda, .pla, .txa, .tya, .adc, .sbc, .and, .eor, .ora].contains i.op || isAccumulatorShift i
/-- R21 -/
def writesX (i : Instr) : Bool := [Op.ldx, .tax, .tsx, .inx, .dex].contains i.op
/-- R22 -/
def writesY (i : Instr) : Bool := [Op.ldy, .tay, .iny, .dey].contains i.op
/-- R23: TXS, pushes and pops -/
def writesSp (i : Instr) : Bool :=
  [Op.txs, .pha, .php, .pla, .plp, .jsr, .rts, .brk, .rti].contains i.op
/-- R27 -/
def writesC (i : Instr) : Bool :=
  [Op.adc, .sbc, .cmp, .cpx, .cpy, .asl, .lsr, .rol, .ror, .clc, .sec, .plp, .rti].contains i.op
/-- R28, without BIT, PLP and RTI: the operations that call SetZN, and ADC and SBC -/
def writesZN (i : Instr) : Bool :=
  [Op.lda, .ldx, .ldy, .tax, .tay, .tsx, .txa, .tya, .pla, .adc, .sbc, .and, .eor, .ora, .inc, .dec,
    .inx, .iny, .dex, .dey, .asl, .lsr, .rol, .ror, .cmp, .cpx, .cpy, .bit, .plp, .rti].contains i.op
/-- R29 -/
def writesI (i : Instr) : Bool := [Op.sei, .cli, .brk, .plp, .rti].contains i.op
/-- R30 -/
def writesD (i : Instr) : Bool := [Op.sed, .cld, .plp, .rti].contains i.op
/-- R31 -/
def writesB (i : Instr) : Bool := [Op.php, .brk, .plp, .rti].contains i.op
/-- R33 -/
def writesV (i : Instr) : Bool := [Op.adc, .sbc, .bit, .clv, .plp, .rti].contains i.op

/-- The operations that store: STA, STX, STY, the memory forms of the read-modify-write operations, and
the pushes (R148). -/
def storesToMemory (i : Instr) : Bool :=
  [Op.sta, .stx, .sty, .inc, .dec, .pha, .php, .jsr, .brk].contains i.op
    || ([Op.asl, .lsr, .rol, .ror].contains i.op && i.mode != .imp)

/-! ### Status bytes and stores -/

/-- A status byte from its flags, N down to C (R26). -/
def packP (n v u b d i z c : Bool) : Byte :=
  BitVec.ofBool n ++ BitVec.ofBool v ++ BitVec.ofBool u ++ BitVec.ofBool b ++ BitVec.ofBool d
    ++ BitVec.ofBool i ++ BitVec.ofBool z ++ BitVec.ofBool c

/-- `p` with Z and N from a result and U = 1, every other flag kept (R162, R143). -/
def statusZN (p r : Byte) : Byte :=
  packP (r.getLsbD 7) (flag p bitV) true (flag p bitB) (flag p bitD) (flag p bitI) (r == 0) (flag p bitC)

/-- `p` with C, and Z and N from a result, and U = 1, every other flag kept. -/
def statusCZN (p : Byte) (c : Bool) (r : Byte) : Byte :=
  packP (r.getLsbD 7) (flag p bitV) true (flag p bitB) (flag p bitD) (flag p bitI) (r == 0) c

/-- `p` with U = 1, every other flag kept (R143). -/
def statusU (p : Byte) : Byte :=
  packP (flag p bitN) (flag p bitV) true (flag p bitB) (flag p bitD) (flag p bitI) (flag p bitZ)
    (flag p bitC)

/-- A, X, Y, SP and P hold the given values. -/
def Regs (t : State) (a x y sp p : Byte) : Prop :=
  t.cpu.a = a ∧ t.cpu.x = x ∧ t.cpu.y = y ∧ t.cpu.sp = sp ∧ t.cpu.p = p

/-- `t` has the memories, the PPU, the cartridge, the system clock and the parameters of `s`. -/
def SameSystem (s t : State) : Prop :=
  t.ppu = s.ppu ∧ t.ram = s.ram ∧ t.mem = s.mem ∧ t.cart = s.cart ∧ t.sysClock = s.sysClock
    ∧ t.params = s.params

/-- The pipeline latches of `t` are those of `s`. -/
def SameLatches (s t : State) : Prop :=
  t.cpu.addrAbs = s.cpu.addrAbs ∧ t.cpu.addrRel = s.cpu.addrRel ∧ t.cpu.fetched = s.cpu.fetched
    ∧ t.cpu.opcode = s.cpu.opcode

/-- Every byte of memory reads as before; a PPU port is no byte of memory (R81). -/
def SameBytes (s t : State) : Prop := ∀ a, inPpuWindow a = false → peek t a = peek s a

/-- The bytes a store to `ea` changes: the RAM byte of `ea` under all its mirrors (R73), reached from
0x4000 up only when the fallback write aliases RAM (R77). -/
def storeHits (s : State) (ea a : Word) : Bool :=
  inRam a && ramIndex a == ramIndex ea
    && (inRam ea || (!inPpuWindow ea && s.params.fallbackAliasesRam))

/-- `t` is `s` with `d` stored at `ea`: the system is that after the bus write, and every byte of memory
reads as before but the stored one. -/
def Stored (s t : State) (ea : Word) (d : Byte) : Prop :=
  SameSystem (memWrite ea d s) t
    ∧ ∀ a, inPpuWindow a = false → peek t a = if storeHits s ea a then d else peek s a

/-- RAM after one, two and three pushes (R145). -/
def pushed1 (s : State) (b : Byte) : Memory := s.ram.write (256 + s.cpu.sp.toNat) b
/-- See `pushed1`. -/
def pushed2 (s : State) (b c : Byte) : Memory :=
  (pushed1 s b).write (256 + (s.cpu.sp - 1).toNat) c
/-- See `pushed1`. -/
def pushed3 (s : State) (b c d : Byte) : Memory :=
  (pushed2 s b c).write (256 + (s.cpu.sp - 2).toNat) d

/-- The byte `k` places up the stack (R146). -/
def stackByte (s : State) (k : Byte) : Byte := s.ram.read (256 + (s.cpu.sp + k).toNat)

/-- The 16-bit value at an address and its successor, as a peek sees it (R11). -/
def peek16 (s : State) (a : Word) : Word := word16 (peek s (a + 1)) (peek s a)

/-- The outcome of one conditional branch (R246). -/
def BranchOutcome (i : Instr) (cond : Bool) (rel : Byte) (s : State) : Prop :=
  ∃ t, exec i s = .next t
    ∧ t.cpu.pc = (if cond then branchTarget rel s else s.cpu.pc + 2)
    ∧ t.cpu.cycles =
        (if cond then
          if (branchTarget rel s).toNat / 256 = (s.cpu.pc + 2).toNat / 256 then 3 else 4
        else 2)
    ∧ Regs t s.cpu.a s.cpu.x s.cpu.y s.cpu.sp (statusU s.cpu.p) ∧ SameSystem s t

/-! ### Scrolling, on `v` and `t` as numbers: fine Y, the two name-table bits, coarse Y, coarse X (R51) -/

/-- The PPU is on the pre-render line or a visible one (R340). -/
def onRenderLine (p : Ppu) : Bool := decide (-1 ≤ p.scanline ∧ p.scanline ≤ 239)

/-- Coarse X plus 1; past 31 it is 0 in the other horizontal name table (R355). -/
def scrollRight (v : Nat) : Nat :=
  if v % 32 = 31 then v / 2048 * 2048 + (1 - v / 1024 % 2) * 1024 + v % 1024 / 32 * 32 else v + 1

/-- Fine Y plus 1; past 7 it is 0 and coarse Y goes up: past 29 to 0 in the other vertical name table, past
31 to 0 in the same one (R355). -/
def scrollDown (v : Nat) : Nat :=
  if v / 4096 < 7 then v + 4096
  else if v / 32 % 32 = 29 then (1 - v / 2048 % 2) * 2048 + v / 1024 % 2 * 1024 + v % 32
  else if v / 32 % 32 = 31 then v / 1024 % 4 * 1024 + v % 32
  else v % 4096 + 32

/-- Coarse X and the horizontal name-table bit of `t` (R355). -/
def scrollCopyX (v t : Nat) : Nat :=
  v / 2048 * 2048 + t / 1024 % 2 * 1024 + v % 1024 / 32 * 32 + t % 32

/-- Fine Y, coarse Y and the vertical name-table bit of `t` (R355). -/
def scrollCopyY (v t : Nat) : Nat :=
  t / 2048 * 2048 + v / 1024 % 2 * 1024 + t % 1024 / 32 * 32 + v % 32

end Sys2Proof.Machine
end

