-- ==== Sys2Proof/Certificates/Slice0/Obligations.lean ====
section
/-!
DEFINITION. The statements for the provers. Each docstring names the rules of spec/ it formalises.
-/

open Sys2Proof Sys2Proof.Machine

/-! ### Encoding -/

/-- Decoding the bytes of a well-formed instruction gives the instruction back and the bytes after it,
for every operand value (30_encoding.md R120, R121, R126, R127 against the Encoding lines of R180 to R278). -/
def Obligations.DecodeOfEncodeIsTheInstruction : Prop :=
  ∀ (i : Instr) (rest : List Byte), i.WellFormed → decode (encode i ++ rest) = .ok (i, rest)

/-- Encoding a decoded instruction gives the decoded bytes back; BRK's padding byte, which the decoder
ignores (D11), comes back as 0 (R120, R121, R129; log 12). -/
def Obligations.EncodeOfDecodeIsTheBytes : Prop :=
  ∀ (bytes rest : List Byte) (i : Instr), decode bytes = .ok (i, rest) →
    i.WellFormed ∧ (i ≠ .brk → encode i ++ rest = bytes)
      ∧ (i = .brk → ∃ pad, bytes = 0x00 :: pad :: rest)

/-- Every opcode byte decodes, to the operation, mode and length of its table entry (R126, R129). -/
def Obligations.EveryOpcodeByteDecodes : Prop :=
  ∀ op b1 b2 : Byte, ∃ i rest, decode [op, b1, b2] = .ok (i, rest) ∧ i.WellFormed
    ∧ i.op = (table op).op ∧ i.mode = (table op).mode ∧ opcodeOf i = some op
    ∧ i.length + rest.length = 3

/-- The words of R133, two of another family and three INVALID bytes decode to what the spec says they
are (R121, R127, R128, R133). -/
def Obligations.SampleWordsDecode : Prop :=
  decodeTableWord 16 0x0AA2 = some (.ldx (.imm 0x0A)) ∧
  decodeTableWord 24 0x12348E = some (.stx (.abs 0x1234)) ∧
  decodeTableWord 24 0x0000AC = some (.ldy (.abs 0x0000)) ∧
  decodeTableWord 24 0x00016D = some (.adc (.abs 0x0001)) ∧
  decodeTableWord 8 0x18 = some .clc ∧
  decodeTableWord 16 0xFAD0 = some (.bne 0xFA) ∧
  decodeTableWord 24 0x02FF6C = some (.jmp (.ind 0x02FF)) ∧
  decodeTableWord 16 0xFF00 = some .brk ∧
  decodeTableWord 8 0x2A = some (.rol .imp) ∧
  decodeTableWord 8 0xEB = some (.invalid 0xEB)

/-! ### The step -/

/-- A bus call in the CPU's phase at an instruction boundary runs, after the PPU's clock, the instruction
that the reads of PC, PC + 1 and PC + 2 give; then the countdown, NMI forwarding and the system clock. When
none of the instruction's bytes lies in the PPU's window, that is the instruction the bytes at PC decode to,
run at the state the PPU's clock leaves (R140, R313). -/
def Obligations.StepRunsTheDecodedInstruction : Prop :=
  ∀ s : State, s.sysClock % 3 = 0 → s.cpu.cycles = 0 →
    (∃ t, (fetchInstr (ppuClock s)).1.WellFormed
      ∧ exec (fetchInstr (ppuClock s)).1 (fetchInstr (ppuClock s)).2 = .next t
      ∧ step s = .next (endBusCall (countDown t))) ∧
    ∀ (i : Instr) (rest : List Byte),
      decode [peek s s.cpu.pc, peek s (s.cpu.pc + 1), peek s (s.cpu.pc + 2)] = .ok (i, rest) →
      (∀ k < i.length, inPpuWindow (s.cpu.pc + BitVec.ofNat 16 k) = false) →
      i.WellFormed ∧ ∃ t, exec i (ppuClock s) = .next t ∧ step s = .next (endBusCall (countDown t))

/-- A bus call outside the CPU's phase, or in it with cycles left, ticks the PPU, counts the cycle if it
is the CPU's phase, forwards the NMI and advances the clock (R140, R313, R314). -/
def Obligations.StepWithoutFetch : Prop :=
  ∀ s : State,
    (s.sysClock % 3 ≠ 0 → step s = .next (endBusCall (ppuClock s))) ∧
    (s.sysClock % 3 = 0 → s.cpu.cycles ≠ 0 → step s = .next (endBusCall (countDown (ppuClock s))))

/-- No instruction traps: every instruction completes, from every state, leaves its whole cost in `cycles`,
and leaves U = 1; and no step stops (R300, R142, R143, R163, R230). The base count in that cost, per operation
and mode, is the one the Encoding lines of R180 to R277 print (`encodingCycles`), and for INVALID the parameter
with the defaults of R127 (`invalidDefaults`). -/
def Obligations.EveryInstructionCompletesWithItsCycles : Prop :=
  (∀ (i : Instr) (s : State), i.WellFormed →
    ∃ t, exec i s = .next t ∧ t.cpu.cycles = cyclesTotal i s ∧ flag t.cpu.p bitU = true) ∧
  ∀ s : State, ∃ t, step s = .next t

/-- PC after an instruction that does not transfer control (R165, point 3). -/
def Obligations.PcAdvancesByTheLength : Prop :=
  ∀ (i : Instr) (s : State), i.WellFormed → controlTransfers.contains i.op = false →
    ∃ t, exec i s = .next t ∧ t.cpu.pc = s.cpu.pc + BitVec.ofNat 16 i.length

/-- The effective address of every operand form, from the operand, X, Y and the bytes of the pointer it reads
(R150 to R161); and what the pipeline latches hold after an instruction (R36 to R39, R141, R149, R230). -/
def Obligations.LatchesAfterAnInstruction : Prop :=
  (∀ (o : Operand) (s : State),
    let x := s.cpu.x.toNat
    let y := s.cpu.y.toNat
    let byteAt := fun n : Nat => (peek s (BitVec.ofNat 16 n)).toNat
    (effAddr o s).toNat =
      (match o with
      | .imp => s.cpu.addrAbs.toNat
      | .imm _ => s.cpu.pc.toNat
      | .zp0 z => z.toNat
      | .zpx z => (z.toNat + x) % 256
      | .zpy z => (z.toNat + y) % 256
      | .rel _ => s.cpu.addrAbs.toNat
      | .abs w => w.toNat
      | .abx w => (w.toNat + x) % 65536
      | .aby w => (w.toNat + y) % 65536
      | .ind w =>
        256 * byteAt (if w.toNat % 256 = 255 then w.toNat - 255 else w.toNat + 1) + byteAt w.toNat
      | .izx z => 256 * byteAt ((z.toNat + x + 1) % 256) + byteAt ((z.toNat + x) % 256)
      | .izy z => (256 * byteAt ((z.toNat + 1) % 256) + byteAt z.toNat + y) % 65536)) ∧
  ∀ (i : Instr) (s : State), i.WellFormed →
    ∃ t, exec i s = .next t ∧ some t.cpu.opcode = opcodeOf i
      ∧ t.cpu.addrAbs =
          (match i.operand with
          | .imp => s.cpu.addrAbs
          | .rel r => if branchTaken i s.cpu.p then branchTarget r s else s.cpu.addrAbs
          | .imm _ => s.cpu.pc + 1
          | o => effAddr o s)
      ∧ t.cpu.addrRel = (match i.operand with | .rel r => sext16 r | _ => s.cpu.addrRel)
      ∧ t.cpu.fetched =
          (if i.mode = .imp then s.cpu.a
          else if operandReaders.contains i.op then operandByte i.operand s
          else s.cpu.fetched)

/-! ### Frames over all instructions -/

/-- A, X, Y and SP change only in the instructions that write them (R20, R21, R22, R23). -/
def Obligations.RegistersChangeOnlyInTheirWriters : Prop :=
  ∀ (i : Instr) (s t : State), exec i s = .next t →
    (writesA i = false → t.cpu.a = s.cpu.a) ∧ (writesX i = false → t.cpu.x = s.cpu.x) ∧
    (writesY i = false → t.cpu.y = s.cpu.y) ∧ (writesSp i = false → t.cpu.sp = s.cpu.sp)

/-- C, Z, I, D, B, V and N change only in the instructions that write them (R27 to R31, R33, R34, R35,
R207). -/
def Obligations.FlagsChangeOnlyInTheirWriters : Prop :=
  ∀ (i : Instr) (s t : State), exec i s = .next t →
    (writesC i = false → flag t.cpu.p bitC = flag s.cpu.p bitC) ∧
    (writesZN i = false → flag t.cpu.p bitZ = flag s.cpu.p bitZ
      ∧ flag t.cpu.p bitN = flag s.cpu.p bitN) ∧
    (writesI i = false → flag t.cpu.p bitI = flag s.cpu.p bitI) ∧
    (writesD i = false → flag t.cpu.p bitD = flag s.cpu.p bitD) ∧
    (writesB i = false → flag t.cpu.p bitB = flag s.cpu.p bitB) ∧
    (writesV i = false → flag t.cpu.p bitV = flag s.cpu.p bitV)

/-- An instruction that stores nothing leaves both memory arrays, the cartridge and so every byte of memory;
no instruction changes the system clock or the parameters (R148, R107). -/
def Obligations.MemoryChangesOnlyInStores : Prop :=
  ∀ (i : Instr) (s t : State), exec i s = .next t →
    t.sysClock = s.sysClock ∧ t.params = s.params ∧
    (storesToMemory i = false →
      t.ram = s.ram ∧ t.mem = s.mem ∧ t.cart = s.cart ∧ SameBytes s t)

/-! ### Loads and stores -/

/-- LDA, LDX and LDY in every form: the register, Z and N from the operand; nothing else but what the
read of a PPU port does (R180, R181, R182). -/
def Obligations.LoadsTakeTheOperand : Prop :=
  ∀ (o : Operand) (s : State),
    ((Instr.lda o).WellFormed → ∃ t, exec (.lda o) s = .next t
      ∧ Regs t (operandByte o s) s.cpu.x s.cpu.y s.cpu.sp (statusZN s.cpu.p (operandByte o s))
      ∧ SameSystem (afterOperandRead o s) t ∧ SameBytes s t) ∧
    ((Instr.ldx o).WellFormed → ∃ t, exec (.ldx o) s = .next t
      ∧ Regs t s.cpu.a (operandByte o s) s.cpu.y s.cpu.sp (statusZN s.cpu.p (operandByte o s))
      ∧ SameSystem (afterOperandRead o s) t ∧ SameBytes s t) ∧
    ((Instr.ldy o).WellFormed → ∃ t, exec (.ldy o) s = .next t
      ∧ Regs t s.cpu.a s.cpu.x (operandByte o s) s.cpu.sp (statusZN s.cpu.p (operandByte o s))
      ∧ SameSystem (afterOperandRead o s) t ∧ SameBytes s t)

/-- STA, STX and STY in every form: the register at the effective address, no flag, no other byte
(R183, R184, R185). -/
def Obligations.StoresPutTheRegister : Prop :=
  ∀ (o : Operand) (s : State), s.Ok →
    ((Instr.sta o).WellFormed → ∃ t, exec (.sta o) s = .next t
      ∧ Regs t s.cpu.a s.cpu.x s.cpu.y s.cpu.sp (statusU s.cpu.p)
      ∧ Stored s t (effAddr o s) s.cpu.a) ∧
    ((Instr.stx o).WellFormed → ∃ t, exec (.stx o) s = .next t
      ∧ Regs t s.cpu.a s.cpu.x s.cpu.y s.cpu.sp (statusU s.cpu.p)
      ∧ Stored s t (effAddr o s) s.cpu.x) ∧
    ((Instr.sty o).WellFormed → ∃ t, exec (.sty o) s = .next t
      ∧ Regs t s.cpu.a s.cpu.x s.cpu.y s.cpu.sp (statusU s.cpu.p)
      ∧ Stored s t (effAddr o s) s.cpu.y)

/-! ### Arithmetic and logic -/

/-- ADC in every form, by the law of R205, with the equal V formula of R190; D has no part in it. -/
def Obligations.AdcAddsWithCarry : Prop :=
  ∀ (o : Operand) (s : State), (Instr.adc o).WellFormed →
    let a := s.cpu.a
    let f := operandByte o s
    let sum := a.toNat + f.toNat + (flag s.cpu.p bitC).toNat
    ∃ t, exec (.adc o) s = .next t ∧ t.cpu.a = BitVec.ofNat 8 sum
      ∧ flag t.cpu.p bitC = decide (sum > 255)
      ∧ flag t.cpu.p bitZ = (t.cpu.a == 0)
      ∧ flag t.cpu.p bitN = t.cpu.a.getLsbD 7
      ∧ flag t.cpu.p bitV = ((a.getLsbD 7 == f.getLsbD 7) && (t.cpu.a.getLsbD 7 != a.getLsbD 7))
      ∧ flag t.cpu.p bitV = ((~~~(a ^^^ f) &&& (a ^^^ t.cpu.a)) &&& 0x80 != 0)
      ∧ t.cpu.x = s.cpu.x ∧ t.cpu.y = s.cpu.y ∧ t.cpu.sp = s.cpu.sp
      ∧ SameSystem (afterOperandRead o s) t ∧ SameBytes s t

/-- SBC with operand f has every output of ADC with operand f xor 0xFF (R206): its result is
A - M - (1 - C), and C is 1 exactly when there is no borrow (R191). -/
def Obligations.SbcIsAdcOfTheComplement : Prop :=
  ∀ (o : Operand) (s : State), (Instr.sbc o).WellFormed →
    ∃ t u, exec (.sbc o) s = .next t
      ∧ exec (.adc (.imm (operandByte o s ^^^ 0xFF))) s = .next u
      ∧ t.cpu.a = u.cpu.a ∧ t.cpu.p = u.cpu.p
      ∧ t.cpu.a = s.cpu.a - operandByte o s - (if flag s.cpu.p bitC then 0 else 1)
      ∧ flag t.cpu.p bitC
          = decide (s.cpu.a.toNat ≥ (operandByte o s).toNat + (if flag s.cpu.p bitC then 0 else 1))
      ∧ flag t.cpu.p bitZ = (t.cpu.a == 0) ∧ flag t.cpu.p bitN = t.cpu.a.getLsbD 7
      ∧ t.cpu.x = s.cpu.x ∧ t.cpu.y = s.cpu.y ∧ t.cpu.sp = s.cpu.sp
      ∧ SameSystem (afterOperandRead o s) t ∧ SameBytes s t

/-- AND, EOR and ORA in every form (R192, R193, R194). -/
def Obligations.LogicCombinesBitwise : Prop :=
  ∀ (o : Operand) (s : State),
    ((Instr.and o).WellFormed → ∃ t, exec (.and o) s = .next t
      ∧ Regs t (s.cpu.a &&& operandByte o s) s.cpu.x s.cpu.y s.cpu.sp
          (statusZN s.cpu.p (s.cpu.a &&& operandByte o s))
      ∧ SameSystem (afterOperandRead o s) t ∧ SameBytes s t) ∧
    ((Instr.eor o).WellFormed → ∃ t, exec (.eor o) s = .next t
      ∧ Regs t (s.cpu.a ^^^ operandByte o s) s.cpu.x s.cpu.y s.cpu.sp
          (statusZN s.cpu.p (s.cpu.a ^^^ operandByte o s))
      ∧ SameSystem (afterOperandRead o s) t ∧ SameBytes s t) ∧
    ((Instr.ora o).WellFormed → ∃ t, exec (.ora o) s = .next t
      ∧ Regs t (s.cpu.a ||| operandByte o s) s.cpu.x s.cpu.y s.cpu.sp
          (statusZN s.cpu.p (s.cpu.a ||| operandByte o s))
      ∧ SameSystem (afterOperandRead o s) t ∧ SameBytes s t)

/-- BIT in every form: Z from A & M, N and V from M (R195). -/
def Obligations.BitTestsTheOperand : Prop :=
  ∀ (o : Operand) (s : State), (Instr.bit o).WellFormed →
    ∃ t, exec (.bit o) s = .next t
      ∧ Regs t s.cpu.a s.cpu.x s.cpu.y s.cpu.sp
          (packP ((operandByte o s).getLsbD 7) ((operandByte o s).getLsbD 6) true
            (flag s.cpu.p bitB) (flag s.cpu.p bitD) (flag s.cpu.p bitI)
            (s.cpu.a &&& operandByte o s == 0) (flag s.cpu.p bitC))
      ∧ SameSystem (afterOperandRead o s) t ∧ SameBytes s t

/-- CMP, CPX and CPY in every form (R196, R197, R198). -/
def Obligations.ComparesSetCarryZeroNegative : Prop :=
  ∀ (o : Operand) (s : State),
    ((Instr.cmp o).WellFormed → ∃ t, exec (.cmp o) s = .next t
      ∧ Regs t s.cpu.a s.cpu.x s.cpu.y s.cpu.sp
          (statusCZN s.cpu.p (decide (s.cpu.a.toNat ≥ (operandByte o s).toNat))
            (s.cpu.a - operandByte o s))
      ∧ SameSystem (afterOperandRead o s) t ∧ SameBytes s t) ∧
    ((Instr.cpx o).WellFormed → ∃ t, exec (.cpx o) s = .next t
      ∧ Regs t s.cpu.a s.cpu.x s.cpu.y s.cpu.sp
          (statusCZN s.cpu.p (decide (s.cpu.x.toNat ≥ (operandByte o s).toNat))
            (s.cpu.x - operandByte o s))
      ∧ SameSystem (afterOperandRead o s) t ∧ SameBytes s t) ∧
    ((Instr.cpy o).WellFormed → ∃ t, exec (.cpy o) s = .next t
      ∧ Regs t s.cpu.a s.cpu.x s.cpu.y s.cpu.sp
          (statusCZN s.cpu.p (decide (s.cpu.y.toNat ≥ (operandByte o s).toNat))
            (s.cpu.y - operandByte o s))
      ∧ SameSystem (afterOperandRead o s) t ∧ SameBytes s t)

/-- INC and DEC in every form: one read, then the result written to the same address (R199, R200,
R147). The byte clause is about memory proper; at a PPU port the store is the port's write. -/
def Obligations.IncDecRewriteTheOperand : Prop :=
  ∀ (o : Operand) (s : State), s.Ok →
    ((Instr.inc o).WellFormed → ∃ t, exec (.inc o) s = .next t
      ∧ Regs t s.cpu.a s.cpu.x s.cpu.y s.cpu.sp (statusZN s.cpu.p (operandByte o s + 1))
      ∧ Stored (afterOperandRead o s) t (effAddr o s) (operandByte o s + 1)) ∧
    ((Instr.dec o).WellFormed → ∃ t, exec (.dec o) s = .next t
      ∧ Regs t s.cpu.a s.cpu.x s.cpu.y s.cpu.sp (statusZN s.cpu.p (operandByte o s - 1))
      ∧ Stored (afterOperandRead o s) t (effAddr o s) (operandByte o s - 1))

/-- INX, INY, DEX and DEY (R201 to R204). -/
def Obligations.IndexIncrementsAndDecrements : Prop :=
  ∀ s : State,
    (∃ t, exec .inx s = .next t
      ∧ Regs t s.cpu.a (s.cpu.x + 1) s.cpu.y s.cpu.sp (statusZN s.cpu.p (s.cpu.x + 1))
      ∧ SameSystem s t) ∧
    (∃ t, exec .iny s = .next t
      ∧ Regs t s.cpu.a s.cpu.x (s.cpu.y + 1) s.cpu.sp (statusZN s.cpu.p (s.cpu.y + 1))
      ∧ SameSystem s t) ∧
    (∃ t, exec .dex s = .next t
      ∧ Regs t s.cpu.a (s.cpu.x - 1) s.cpu.y s.cpu.sp (statusZN s.cpu.p (s.cpu.x - 1))
      ∧ SameSystem s t) ∧
    (∃ t, exec .dey s = .next t
      ∧ Regs t s.cpu.a s.cpu.x (s.cpu.y - 1) s.cpu.sp (statusZN s.cpu.p (s.cpu.y - 1))
      ∧ SameSystem s t)

/-- D has no effect: an instruction that neither pushes P nor writes D does the same from a state with
any D, and leaves that D; those that write D leave a state that does not depend on it (R164, R30). -/
def Obligations.DecimalFlagHasNoEffect : Prop :=
  ∀ (i : Instr) (s : State) (d : Bool), i.WellFormed → i.op ≠ .php → i.op ≠ .brk →
    ∃ t, exec i s = .next t
      ∧ (writesD i = false → exec i (s.setFlag bitD d) = .next (t.setFlag bitD d))
      ∧ (writesD i = true → exec i (s.setFlag bitD d) = .next t)

/-! ### Shifts -/

/-- ASL, LSR, ROL and ROR on the accumulator: result, carry out, Z and N (R220 to R223). -/
def Obligations.AccumulatorShifts : Prop :=
  ∀ s : State,
    let a := s.cpu.a
    let c := flag s.cpu.p bitC
    (∃ t, exec (.asl .imp) s = .next t ∧ SameSystem s t
      ∧ Regs t (2 * a) s.cpu.x s.cpu.y s.cpu.sp (statusCZN s.cpu.p (a.getLsbD 7) (2 * a))) ∧
    (∃ t, exec (.lsr .imp) s = .next t ∧ SameSystem s t
      ∧ Regs t (a >>> 1) s.cpu.x s.cpu.y s.cpu.sp (statusCZN s.cpu.p (a.getLsbD 0) (a >>> 1))) ∧
    (∃ t r, exec (.rol .imp) s = .next t ∧ SameSystem s t
      ∧ (∀ k, r.getLsbD k = if k = 0 then c else decide (k < 8) && a.getLsbD (k - 1))
      ∧ Regs t r s.cpu.x s.cpu.y s.cpu.sp (statusCZN s.cpu.p (a.getLsbD 7) r)) ∧
    (∃ t r, exec (.ror .imp) s = .next t ∧ SameSystem s t
      ∧ (∀ k, r.getLsbD k = if k = 7 then c else a.getLsbD (k + 1))
      ∧ Regs t r s.cpu.x s.cpu.y s.cpu.sp (statusCZN s.cpu.p (a.getLsbD 0) r))

/-- ASL, LSR, ROL and ROR on memory: one read, then the result written to the same address; A is
unchanged (R220 to R223, R147). -/
def Obligations.MemoryShifts : Prop :=
  ∀ (o : Operand) (s : State), s.Ok → o ≠ .imp →
    let m := operandByte o s
    let c := flag s.cpu.p bitC
    ((Instr.asl o).WellFormed → ∃ t, exec (.asl o) s = .next t
      ∧ Regs t s.cpu.a s.cpu.x s.cpu.y s.cpu.sp (statusCZN s.cpu.p (m.getLsbD 7) (2 * m))
      ∧ Stored (afterOperandRead o s) t (effAddr o s) (2 * m)) ∧
    ((Instr.lsr o).WellFormed → ∃ t, exec (.lsr o) s = .next t
      ∧ Regs t s.cpu.a s.cpu.x s.cpu.y s.cpu.sp (statusCZN s.cpu.p (m.getLsbD 0) (m >>> 1))
      ∧ Stored (afterOperandRead o s) t (effAddr o s) (m >>> 1)) ∧
    ((Instr.rol o).WellFormed → ∃ t r, exec (.rol o) s = .next t
      ∧ (∀ k, r.getLsbD k = if k = 0 then c else decide (k < 8) && m.getLsbD (k - 1))
      ∧ Regs t s.cpu.a s.cpu.x s.cpu.y s.cpu.sp (statusCZN s.cpu.p (m.getLsbD 7) r)
      ∧ Stored (afterOperandRead o s) t (effAddr o s) r) ∧
    ((Instr.ror o).WellFormed → ∃ t r, exec (.ror o) s = .next t
      ∧ (∀ k, r.getLsbD k = if k = 7 then c else m.getLsbD (k + 1))
      ∧ Regs t s.cpu.a s.cpu.x s.cpu.y s.cpu.sp (statusCZN s.cpu.p (m.getLsbD 0) r)
      ∧ Stored (afterOperandRead o s) t (effAddr o s) r)

/-- The shift laws (R224). On the instructions: ASL in every form is ROL after C = 0, and LSR is ROR after
C = 0, on every output; ROL A then ROR A, and ROR A then ROL A, give A and C back. On the operations they
share for every form: the same, and none writes V, I, D, B or U. -/
def Obligations.ShiftLaws : Prop :=
  (∀ (o : Operand) (s : State), (Instr.asl o).WellFormed →
    (∃ t u, exec (.asl o) s = .next t ∧ exec (.rol o) (s.setFlag bitC false) = .next u
      ∧ t.cpu.a = u.cpu.a ∧ t.cpu.p = u.cpu.p ∧ SameSystem u t) ∧
    (∃ t u, exec (.lsr o) s = .next t ∧ exec (.ror o) (s.setFlag bitC false) = .next u
      ∧ t.cpu.a = u.cpu.a ∧ t.cpu.p = u.cpu.p ∧ SameSystem u t)) ∧
  (∀ s : State,
    (∃ t u, exec (.rol .imp) s = .next t ∧ exec (.ror .imp) t = .next u
      ∧ u.cpu.a = s.cpu.a ∧ flag u.cpu.p bitC = flag s.cpu.p bitC) ∧
    (∃ t u, exec (.ror .imp) s = .next t ∧ exec (.rol .imp) t = .next u
      ∧ u.cpu.a = s.cpu.a ∧ flag u.cpu.p bitC = flag s.cpu.p bitC)) ∧
  ∀ p m : Byte,
    (ror (rol p m).status (rol p m).result).result = m ∧
    flag (ror (rol p m).status (rol p m).result).status bitC = flag p bitC ∧
    (rol (ror p m).status (ror p m).result).result = m ∧
    flag (rol (ror p m).status (ror p m).result).status bitC = flag p bitC ∧
    asl p m = rol (putBit p bitC false) m ∧ lsr p m = ror (putBit p bitC false) m ∧
    ∀ r ∈ [asl p m, lsr p m, rol p m, ror p m], ∀ k ∈ [bitV, bitI, bitD, bitB, bitU],
      flag r.status k = flag p k

/-! ### Control transfer -/

/-- The branch law, for every branch opcode and every state (R246, R231 to R238). -/
def Obligations.BranchLaw : Prop :=
  ∀ (rel : Byte) (s : State),
    BranchOutcome (.bcc rel) (!flag s.cpu.p bitC) rel s ∧
    BranchOutcome (.bcs rel) (flag s.cpu.p bitC) rel s ∧
    BranchOutcome (.beq rel) (flag s.cpu.p bitZ) rel s ∧
    BranchOutcome (.bne rel) (!flag s.cpu.p bitZ) rel s ∧
    BranchOutcome (.bmi rel) (flag s.cpu.p bitN) rel s ∧
    BranchOutcome (.bpl rel) (!flag s.cpu.p bitN) rel s ∧
    BranchOutcome (.bvc rel) (!flag s.cpu.p bitV) rel s ∧
    BranchOutcome (.bvs rel) (flag s.cpu.p bitV) rel s

/-- JMP: the absolute form goes to its operand; the indirect form to the word at the pointer, the high
byte from the pointer's own page when the pointer ends in 0xFF; a pointer in the PPU's window is read
with the ports' side effects (R239, R159). -/
def Obligations.JmpGoesToItsTarget : Prop :=
  ∀ (w : Word) (s : State),
    (∃ t, exec (.jmp (.abs w)) s = .next t ∧ t.cpu.pc = w
      ∧ Regs t s.cpu.a s.cpu.x s.cpu.y s.cpu.sp (statusU s.cpu.p) ∧ SameSystem s t) ∧
    (∃ t, exec (.jmp (.ind w)) s = .next t
      ∧ Regs t s.cpu.a s.cpu.x s.cpu.y s.cpu.sp (statusU s.cpu.p)
      ∧ SameSystem (memRead (if w.toNat % 256 = 255 then w - 255 else w + 1) (memRead w s).2).2 t
      ∧ (inPpuWindow w = false →
          t.cpu.pc
            = word16 (peek s (if w.toNat % 256 = 255 then w - 255 else w + 1)) (peek s w))
      ∧ (inPpuWindow w = true →
          t.cpu.pc
            = word16 (memRead (if w.toNat % 256 = 255 then w - 255 else w + 1) (memRead w s).2).1
                (memRead w s).1))

/-- JSR pushes the address of its last byte, high then low, and goes to its operand (R240). -/
def Obligations.JsrPushesTheReturnAddress : Prop :=
  ∀ (w : Word) (s : State),
    ∃ t, exec (.jsr w) s = .next t ∧ t.cpu.pc = w
      ∧ Regs t s.cpu.a s.cpu.x s.cpu.y (s.cpu.sp - 2) (statusU s.cpu.p)
      ∧ SameSystem (s.setRam (pushed2 s (hiByte (s.cpu.pc + 2)) (loByte (s.cpu.pc + 2)))) t

/-- RTS pops low then high and adds 1 (R241). -/
def Obligations.RtsPopsAndAddsOne : Prop :=
  ∀ s : State,
    ∃ t, exec .rts s = .next t ∧ t.cpu.pc = word16 (stackByte s 2) (stackByte s 1) + 1
      ∧ Regs t s.cpu.a s.cpu.x s.cpu.y (s.cpu.sp + 2) (statusU s.cpu.p) ∧ SameSystem s t

/-- The round-trip laws (R245), whatever happened to every other byte in between: the RTS that pops what JSR
pushed returns to pc + 3 with SP restored; the RTI that pops what an interrupt taken with PC = p and P = s
pushed returns to p with s less B, with U. -/
def Obligations.CallAndInterruptRoundTrips : Prop :=
  ∀ s : State, s.ram.wf = true →
    let stackKept := fun (n : Nat) (t u : State) =>
      u.cpu.sp = t.cpu.sp
        ∧ ∀ k, 1 ≤ k → k ≤ n → stackByte u (BitVec.ofNat 8 k) = stackByte t (BitVec.ofNat 8 k)
    (∀ w, ∃ t, exec (.jsr w) s = .next t ∧ ∀ u : State, stackKept 2 t u →
      ∃ r, exec .rts u = .next r ∧ r.cpu.pc = s.cpu.pc + 3 ∧ r.cpu.sp = s.cpu.sp) ∧
    (flag s.cpu.p bitI = false → ∀ u : State, stackKept 3 (irq s) u →
      ∃ r, exec .rti u = .next r ∧ r.cpu.pc = s.cpu.pc ∧ r.cpu.sp = s.cpu.sp
        ∧ r.cpu.p = s.cpu.p &&& ~~~0x10 ||| 0x20) ∧
    (∀ u : State, stackKept 3 (nmi s) u →
      ∃ r, exec .rti u = .next r ∧ r.cpu.pc = s.cpu.pc ∧ r.cpu.sp = s.cpu.sp
        ∧ r.cpu.p = s.cpu.p &&& ~~~0x10 ||| 0x20) ∧
    (∃ t, exec .brk s = .next t ∧ ∀ u : State, stackKept 3 t u →
      ∃ r, exec .rti u = .next r ∧ r.cpu.pc = s.cpu.pc + 2 ∧ r.cpu.sp = s.cpu.sp
        ∧ r.cpu.p = s.cpu.p &&& ~~~0x10 ||| 0x20)

/-- BRK: pushes its address + 2 and P with B and U set; B ends 0 and I ends 1; PC is the word at 0xFFFE
(R242, R84). -/
def Obligations.BrkTakesTheInterrupt : Prop :=
  ∀ s : State,
    ∃ t, exec .brk s = .next t ∧ t.cpu.pc = peek16 s 0xFFFE
      ∧ Regs t s.cpu.a s.cpu.x s.cpu.y (s.cpu.sp - 3)
          (packP (flag s.cpu.p bitN) (flag s.cpu.p bitV) true false (flag s.cpu.p bitD) true
            (flag s.cpu.p bitZ) (flag s.cpu.p bitC))
      ∧ SameSystem
          (s.setRam (pushed3 s (hiByte (s.cpu.pc + 2)) (loByte (s.cpu.pc + 2))
            (packP (flag s.cpu.p bitN) (flag s.cpu.p bitV) true true (flag s.cpu.p bitD)
              (flag s.cpu.p bitI) (flag s.cpu.p bitZ) (flag s.cpu.p bitC)))) t

/-- RTI: P from the stack with B = 0 and U = 1, then PC low and high, no +1 (R243, R307). -/
def Obligations.RtiRestoresStatusAndPc : Prop :=
  ∀ s : State,
    ∃ t, exec .rti s = .next t ∧ t.cpu.pc = word16 (stackByte s 3) (stackByte s 2)
      ∧ Regs t s.cpu.a s.cpu.x s.cpu.y (s.cpu.sp + 3) (stackByte s 1 &&& 0xCF ||| 0x20)
      ∧ SameSystem s t

/-! ### Stack, flags, transfers, NOP, INVALID -/

/-- PHA, PHP, PLA and PLP (R260 to R263, R145, R146). -/
def Obligations.StackInstructions : Prop :=
  ∀ s : State,
    (∃ t, exec .pha s = .next t
      ∧ Regs t s.cpu.a s.cpu.x s.cpu.y (s.cpu.sp - 1) (statusU s.cpu.p)
      ∧ SameSystem (s.setRam (pushed1 s s.cpu.a)) t) ∧
    (∃ t, exec .php s = .next t
      ∧ Regs t s.cpu.a s.cpu.x s.cpu.y (s.cpu.sp - 1) (s.cpu.p &&& 0xCF ||| 0x20)
      ∧ SameSystem (s.setRam (pushed1 s (s.cpu.p ||| 0x30))) t) ∧
    (∃ t, exec .pla s = .next t
      ∧ Regs t (stackByte s 1) s.cpu.x s.cpu.y (s.cpu.sp + 1) (statusZN s.cpu.p (stackByte s 1))
      ∧ SameSystem s t) ∧
    (∃ t, exec .plp s = .next t
      ∧ Regs t s.cpu.a s.cpu.x s.cpu.y (s.cpu.sp + 1) (stackByte s 1 ||| 0x20)
      ∧ SameSystem s t)

/-- The seven flag operations write their flag and nothing else (R264 to R270). -/
def Obligations.FlagOperations : Prop :=
  ∀ (s : State), ∀ e ∈ [(Instr.clc, bitC, false), (.cld, bitD, false), (.cli, bitI, false),
      (.clv, bitV, false), (.sec, bitC, true), (.sed, bitD, true), (.sei, bitI, true)],
    ∃ t, exec e.1 s = .next t ∧ SameSystem s t
      ∧ t.cpu.a = s.cpu.a ∧ t.cpu.x = s.cpu.x ∧ t.cpu.y = s.cpu.y ∧ t.cpu.sp = s.cpu.sp
      ∧ ∀ k, flag t.cpu.p k
          = if k = e.2.1 then e.2.2 else if k = bitU then true else flag s.cpu.p k

/-- The six transfers; TXS writes no flag (R271 to R276). -/
def Obligations.RegisterTransfers : Prop :=
  ∀ s : State,
    (∃ t, exec .tax s = .next t ∧ SameSystem s t
      ∧ Regs t s.cpu.a s.cpu.a s.cpu.y s.cpu.sp (statusZN s.cpu.p s.cpu.a)) ∧
    (∃ t, exec .tay s = .next t ∧ SameSystem s t
      ∧ Regs t s.cpu.a s.cpu.x s.cpu.a s.cpu.sp (statusZN s.cpu.p s.cpu.a)) ∧
    (∃ t, exec .tsx s = .next t ∧ SameSystem s t
      ∧ Regs t s.cpu.a s.cpu.sp s.cpu.y s.cpu.sp (statusZN s.cpu.p s.cpu.sp)) ∧
    (∃ t, exec .txa s = .next t ∧ SameSystem s t
      ∧ Regs t s.cpu.x s.cpu.x s.cpu.y s.cpu.sp (statusZN s.cpu.p s.cpu.x)) ∧
    (∃ t, exec .txs s = .next t ∧ SameSystem s t
      ∧ Regs t s.cpu.a s.cpu.x s.cpu.y s.cpu.x (statusU s.cpu.p)) ∧
    (∃ t, exec .tya s = .next t ∧ SameSystem s t
      ∧ Regs t s.cpu.y s.cpu.x s.cpu.y s.cpu.sp (statusZN s.cpu.p s.cpu.y))

/-- NOP and every INVALID byte change PC, the cycle count and latches only; an INVALID byte costs its parameter's
count, by default the one R127 prints (R277, R278, R128). -/
def Obligations.NopAndInvalidDoNothing : Prop :=
  ∀ s : State,
    (∃ t, exec .nop s = .next t ∧ t.cpu.pc = s.cpu.pc + 1 ∧ t.cpu.cycles = 2
      ∧ Regs t s.cpu.a s.cpu.x s.cpu.y s.cpu.sp (statusU s.cpu.p) ∧ SameSystem s t) ∧
    ∀ op, (table op).op = .invalid → ∃ t, exec (.invalid op) s = .next t
      ∧ t.cpu.pc = s.cpu.pc + 1 ∧ t.cpu.cycles = baseOf (.invalid op) s
      ∧ Regs t s.cpu.a s.cpu.x s.cpu.y s.cpu.sp (statusU s.cpu.p) ∧ SameSystem s t

/-! ### Interrupts and reset -/

/-- `irq()` (R302, R309): nothing while I = 1; otherwise the pushes, I, the vector at 0xFFFE and 7 cycles. -/
def Obligations.IrqEntry : Prop :=
  ∀ s : State,
    (flag s.cpu.p bitI = true → irq s = s) ∧
    (flag s.cpu.p bitI = false →
      (irq s).cpu.pc = peek16 s 0xFFFE ∧ (irq s).cpu.cycles = 7
      ∧ Regs (irq s) s.cpu.a s.cpu.x s.cpu.y (s.cpu.sp - 3)
          (packP (flag s.cpu.p bitN) (flag s.cpu.p bitV) true false (flag s.cpu.p bitD) true
            (flag s.cpu.p bitZ) (flag s.cpu.p bitC))
      ∧ SameSystem
          (s.setRam (pushed3 s (hiByte s.cpu.pc) (loByte s.cpu.pc)
            (packP (flag s.cpu.p bitN) (flag s.cpu.p bitV) true false (flag s.cpu.p bitD) false
              (flag s.cpu.p bitZ) (flag s.cpu.p bitC)))) (irq s)
      ∧ SameLatches s (irq s))

/-- `nmi()` (R303): the same, whatever I is, through the vector parameter, with 8 cycles. The vector is
read after the pushes; from 0x4000 up that is the word as it stood. -/
def Obligations.NmiEntry : Prop :=
  ∀ s : State,
    let pushed := s.setRam (pushed3 s (hiByte s.cpu.pc) (loByte s.cpu.pc)
      (packP (flag s.cpu.p bitN) (flag s.cpu.p bitV) true false (flag s.cpu.p bitD)
        (flag s.cpu.p bitI) (flag s.cpu.p bitZ) (flag s.cpu.p bitC)))
    (nmi s).cpu.pc = (memRead16 s.params.nmiVector pushed).1 ∧ (nmi s).cpu.cycles = 8
      ∧ Regs (nmi s) s.cpu.a s.cpu.x s.cpu.y (s.cpu.sp - 3)
          (packP (flag s.cpu.p bitN) (flag s.cpu.p bitV) true false (flag s.cpu.p bitD) true
            (flag s.cpu.p bitZ) (flag s.cpu.p bitC))
      ∧ SameSystem (memRead16 s.params.nmiVector pushed).2 (nmi s) ∧ SameLatches s (nmi s)
      ∧ (s.params = Params.default → (nmi s).cpu.pc = peek16 s 0xFFFE ∧ SameSystem pushed (nmi s))

/-- The Bus delivers the NMI in the bus call whose PPU clock raised it, after the CPU's clock, and clears
the request (R313, R315). -/
def Obligations.NmiIsDeliveredInTheSameBusCall : Prop :=
  ∀ s : State, s.ppu.nmiRequest = false → ∃ t, step s = .next t ∧ t.ppu.nmiRequest = false ∧
    ((s.ppu.scanline = 241 ∧ s.ppu.cycle = 1 ∧ s.ppu.enableNmi = true) → ∃ u,
      (if cpuPhase s then cpuClock (ppuClock s) else .next (ppuClock s)) = .next u
        ∧ t = advanceSysClock (nmi (u.setPpu { u.ppu with nmiRequest := false }))) ∧
    (¬(s.ppu.scanline = 241 ∧ s.ppu.cycle = 1 ∧ s.ppu.enableNmi = true) →
      ∃ u, (if cpuPhase s then cpuClock (ppuClock s) else .next (ppuClock s)) = .next u
        ∧ t = advanceSysClock u)

/-- `cpu.reset()` from any state: the registers R400 names, the vector at 0xFFFC, and nothing else of the
machine (R400, R402). -/
def Obligations.ResetLaw : Prop :=
  ∀ s : State,
    (cpuReset s).cpu =
        { a := 0x00, x := 0x00, y := 0x00, sp := 0xFD, p := 0x20, pc := peek16 s 0xFFFC
          addrAbs := 0x0000, addrRel := 0x0000, fetched := 0x00, opcode := s.cpu.opcode, cycles := 8 }
      ∧ SameSystem s (cpuReset s)

/-- The boot sequence fetches its first opcode in bus call 24, counted from 0: the 24 calls before it leave
every CPU register but the countdown, and end at an instruction boundary in the CPU's phase; call 24 then reads
the opcode at the reset vector, which the latch takes, and runs the instruction that starts there (R403, R405).
A cartridge the loader accepts, any draws, any parameters. -/
def Obligations.FirstOpcodeIsFetchedInBusCall24 : Prop :=
  ∀ (params : Params) (draws : PowerOn) (image chrDraw : List Byte) (s : State),
    boot params draws image chrDraw = .next s →
    (∀ n ≤ 24, ∃ t, busCalls n s = .next t ∧ t.sysClock = n
      ∧ t.cpu = { s.cpu with cycles := 8 - (n + 2) / 3 }) ∧
    ∃ t, busCalls 24 s = .next t ∧ cpuPhase t = true ∧ complete t = true
      ∧ t.cpu.pc = peek16 s 0xFFFC ∧ t.cpu.sp = 0xFD ∧ t.cpu.p = 0x20
      ∧ ∃ u, exec (fetchInstr (ppuClock t)).1 (fetchInstr (ppuClock t)).2 = .next u
        ∧ step t = .next (endBusCall (countDown u))
        ∧ (ppuClock t).cpu.pc = peek16 s 0xFFFC
        ∧ u.cpu.opcode = peek (ppuClock t) (peek16 s 0xFFFC)

/-! ### The bus and the cartridge -/

/-- Reads of the CPU's address space: RAM under its four mirrors, 0 from 0x4000 to 0x7FFF and PRG above
while the image is installed; a read outside the PPU's window changes nothing, and a peek returns what a
read returns (R71, R73, R75, R76, R78, R81). -/
def Obligations.BusReads : Prop :=
  ∀ (s : State) (a : Word),
    (memRead a s).1 = peek s a ∧ (busRead a true s).2 = s ∧
    (inPpuWindow a = false → (memRead a s).2 = s) ∧
    (a.toNat < 0x2000 → peek s a = s.ram.read (a.toNat % 0x800)) ∧
    (0x2000 ≤ a.toNat → a.toNat < 0x4000 →
      memRead a s = memRead (0x2000 + BitVec.ofNat 16 (a.toNat % 8)) s) ∧
    (RomInstalled s → 0x4000 ≤ a.toNat → peek s a = romByte s.cart a.toNat)

/-- A CPU write changes one byte of memory, under all its mirrors, and never a byte from 0x4000 up; at
the PPU's window it is the port's write, the same for every mirror (R72, R73, R74, R77, R110). -/
def Obligations.BusWritesChangeOneByte : Prop :=
  ∀ (s : State) (ea : Word) (d : Byte), s.ram.wf = true → s.mem.wf = true →
    (∀ a, inPpuWindow a = false →
      peek (memWrite ea d s) a = if storeHits s ea a then d else peek s a) ∧
    (0x2000 ≤ ea.toNat → ea.toNat < 0x4000 →
      memWrite ea d s = memWrite (0x2000 + BitVec.ofNat 16 (ea.toNat % 8)) d s) ∧
    (RomInstalled s → RomInstalled (memWrite ea d s))

/-- Push then Pop returns the byte and restores SP; both wrap in page 1 (R145, R146). -/
def Obligations.PushThenPop : Prop :=
  ∀ (s : State) (b : Byte), s.ram.wf = true →
    push b s = (s.setRam (pushed1 s b)).setSp (s.cpu.sp - 1) ∧
    pop s = (stackByte s 1, s.setSp (s.cpu.sp + 1)) ∧
    (pop (push b s)).1 = b ∧ (pop (push b s)).2.cpu.sp = s.cpu.sp

/-- A rejected image changes nothing and names a check it fails; an accepted one installs PRG, CHR, banks and
mirroring and sets PC to the reset vector, and nothing else (R85 to R94, R99). Two clauses are the model's
choice: which reason an image that fails several checks carries (log 17: the order in which the checks are
written; U9 leaves it open), and that the draw of CHR RAM is a list, 0 past its end (log 4). -/
def Obligations.InsertCartridge : Prop :=
  ∀ (image chrDraw : List Byte) (s : State),
    let byte := fun i : Nat => image.getD i 0
    let mapper := (byte 7 &&& 0xF0) ||| (byte 6 >>> 4)
    let prg := 16384 * (byte 4).toNat
    let chr := 8192 * (byte 5).toNat
    (image.length < 16 ∨ image.take 4 ≠ [0x4E, 0x45, 0x53, 0x1A] →
      insertCartridge image chrDraw s = .error .badHeader) ∧
    (16 ≤ image.length → image.take 4 = [0x4E, 0x45, 0x53, 0x1A] →
      (mapper ≠ 0 → insertCartridge image chrDraw s = .error .unsupportedMapper) ∧
      (mapper = 0 →
        (byte 4 ≠ 1 → byte 4 ≠ 2 → insertCartridge image chrDraw s = .error .prgBankCount) ∧
        (byte 4 = 1 ∨ byte 4 = 2 →
          (image.length < 16 + prg + chr → insertCartridge image chrDraw s = .error .truncated) ∧
          (16 + prg + chr ≤ image.length →
            ∃ t c, insertCartridge image chrDraw s = .ok t ∧ t.cart = some c ∧ c.Ok
              ∧ c.prgBanks = byte 4 ∧ c.chrBanks = byte 5
              ∧ c.mirroring = (if (byte 6).getLsbD 0 then Mirroring.vertical else .horizontal)
              ∧ (∀ k, k < prg → c.prg.read k = byte (16 + k))
              ∧ (∀ k, k < 0x8000 → t.mem.read (0x8000 + k) = byte (16 + k % prg))
              ∧ (∀ k, k < 0x8000 → t.mem.read k = 0)
              ∧ (∀ k, k < chr → c.chr.read k = byte (16 + prg + k))
              ∧ (chr = 0 → ∀ k, k < 0x2000 → c.chr.read k = chrDraw.getD k 0)
              ∧ t.cpu = { s.cpu with pc := peek16 t 0xFFFC } ∧ t.ppu = s.ppu ∧ t.ram = s.ram
              ∧ t.sysClock = s.sysClock ∧ t.params = s.params))))

/-! ### The PPU's registers and memory -/

/-- A read of 0x2002 returns vertical blank, 0, 0 and the low bits of the last write, clears vertical
blank and the toggle, and nothing else; a read of the other ports but 0x2007 returns 0 and changes nothing
(R324, R330, R49, R50). -/
def Obligations.StatusPortReads : Prop :=
  ∀ s : State, s.Ok →
    (memRead 0x2002 s).1
      = (if s.ppu.verticalBlank then 0x80 else 0x00) ||| (s.ppu.ppuBus &&& 0x1F) ∧
    (memRead 0x2002 s).2 = s.setPpu { s.ppu with verticalBlank := false, w := false } ∧
    ∀ a ∈ [(0x2000 : Word), 0x2001, 0x2003, 0x2004, 0x2005, 0x2006], memRead a s = (0x00, s)

/-- A read of 0x2007: the buffer, or at once in palette space; the buffer takes the byte at `v`; `v` goes
up by 1 or 32; a peek gives the byte in palette space, else the buffer, and changes nothing (R327, R328). -/
def Obligations.DataPortReads : Prop :=
  ∀ s : State,
    let fresh := ppuRead s.cart s.ppu (s.ppu.v.setWidth 16)
    memRead 0x2007 s =
      (if s.ppu.v.toNat % 0x4000 ≥ 0x3F00 then fresh else s.ppu.dataBuffer,
        s.setPpu
          { s.ppu with
            dataBuffer := fresh
            v := s.ppu.v + (if s.ppu.ctrl.getLsbD 2 then 32 else 1) }) ∧
    busRead 0x2007 true s
      = (if s.ppu.v.toNat % 0x4000 ≥ 0x3F00 then fresh else s.ppu.dataBuffer, s)

/-- A byte written through 0x2007 goes to one cell of the name tables, the palette or CHR RAM, and reads back at
its PPU address under their mirrors and folds; CHR ROM is never written; `v` goes up; every other cell and
register is as before (R98, R100 to R104, R329). -/
def Obligations.DataPortWrites : Prop :=
  ∀ (s : State) (d : Byte), s.Ok →
    let t := memWrite 0x2007 d s
    let addr : Word := s.ppu.v.setWidth 16
    let a := s.ppu.v.toNat % 0x4000
    t.ppu.v = s.ppu.v + (if s.ppu.ctrl.getLsbD 2 then 32 else 1) ∧
    t.ppu =
      { s.ppu with
        v := t.ppu.v, ppuBus := d, nt0 := t.ppu.nt0, nt1 := t.ppu.nt1, palette := t.ppu.palette } ∧
    t.cpu = s.cpu ∧ t.ram = s.ram ∧ t.mem = s.mem ∧ t.sysClock = s.sysClock ∧ t.params = s.params ∧
    (0x2000 ≤ a → a < 0x3F00 →
      ppuRead t.cart t.ppu addr = d ∧ t.cart = s.cart ∧ t.ppu.palette = s.ppu.palette ∧
      ((t.ppu.nt1 = s.ppu.nt1 ∧
          ∀ k, t.ppu.nt0.read k = if k = a % 0x400 then d else s.ppu.nt0.read k) ∨
        (t.ppu.nt0 = s.ppu.nt0 ∧
          ∀ k, t.ppu.nt1.read k = if k = a % 0x400 then d else s.ppu.nt1.read k)) ∧
      ∀ c, s.cart = some c →
        (c.mirroring = .vertical →
          if a / 0x400 % 2 = 0 then t.ppu.nt1 = s.ppu.nt1 else t.ppu.nt0 = s.ppu.nt0) ∧
        (c.mirroring = .horizontal →
          if a / 0x800 % 2 = 0 then t.ppu.nt1 = s.ppu.nt1 else t.ppu.nt0 = s.ppu.nt0)) ∧
    (0x3F00 ≤ a →
      ppuRead t.cart t.ppu addr = d &&& (if s.ppu.mask.getLsbD 0 then 0x30 else 0x3F)
        ∧ t.cart = s.cart ∧ t.ppu.nt0 = s.ppu.nt0 ∧ t.ppu.nt1 = s.ppu.nt1
        ∧ ∀ k, t.ppu.palette.read k =
            if k = (if a % 0x20 ≥ 0x10 ∧ a % 4 = 0 then a % 0x20 - 0x10 else a % 0x20) then d
            else s.ppu.palette.read k) ∧
    (a < 0x2000 →
      t.ppu.nt0 = s.ppu.nt0 ∧ t.ppu.nt1 = s.ppu.nt1 ∧ t.ppu.palette = s.ppu.palette ∧
      ∀ c, s.cart = some c → ∃ c', t.cart = some c' ∧ c' = { c with chr := c'.chr } ∧
        (c.chrBanks = 0 → c'.chr.read a = d ∧ ∀ k, k ≠ a → c'.chr.read k = c.chr.read k) ∧
        (c.chrBanks ≠ 0 → c' = c))

/-- A read of the PPU's address space, for every 16-bit address reduced to 14 bits (R100): pattern memory
(R97, R101), name-table mirroring (R102) and palette folding (R103). -/
def Obligations.MirroringAndFolding : Prop :=
  ∀ (c : Cartridge) (p : Ppu) (addr : Word),
    let a := addr.toNat % 0x4000
    (0x2000 ≤ a → a < 0x3F00 →
      ppuRead (some c) p addr =
        (match c.mirroring with
        | .vertical =>
          if (a % 0x1000) / 0x400 % 2 = 0 then p.nt0.read (a % 0x400) else p.nt1.read (a % 0x400)
        | .horizontal =>
          if (a % 0x1000) / 0x800 = 0 then p.nt0.read (a % 0x400) else p.nt1.read (a % 0x400))) ∧
    (0x3F00 ≤ a →
      ppuRead (some c) p addr =
        p.palette.read (if a % 0x20 ≥ 0x10 ∧ a % 4 = 0 then a % 0x20 - 0x10 else a % 0x20)
          &&& (if p.mask.getLsbD 0 then 0x30 else 0x3F)) ∧
    (a < 0x2000 → ppuRead (some c) p addr = c.chr.read a)

/-- Every write of 0x2000 to 0x2006, `t`, `v` and `fine_x` as numbers. One write of 0x2005 or 0x2006, with the
toggle either way; then each pair from w = 0: two of 0x2006 set `v` and `t` from fourteen bits, two of 0x2005
the scroll fields and `fine_x`, and one of each shares the toggle (R412). 0x2000 sets `ctrl` and the name-table
bits of `t`; 0x2001 sets `mask`; 0x2002, 0x2003 and 0x2004 only reach the open-bus latch (R321 to R323, R325,
R326, R331). -/
def Obligations.ControlScrollAndAddressWrites : Prop :=
  ∀ (s : State) (h l : Byte),
    let t := s.ppu.t.toNat
    (let r := memWrite 0x2005 h s
     r = s.setPpu { s.ppu with ppuBus := h, w := !s.ppu.w, t := r.ppu.t, fineX := r.ppu.fineX }
        ∧ (s.ppu.w = false →
          r.ppu.fineX.toNat = h.toNat % 8 ∧ r.ppu.t.toNat = t / 32 * 32 + h.toNat / 8)
        ∧ (s.ppu.w = true → r.ppu.fineX = s.ppu.fineX
          ∧ r.ppu.t.toNat = (h.toNat % 8) * 4096 + (t / 1024 % 4) * 1024 + (h.toNat / 8) * 32 + t % 32)) ∧
    (let r := memWrite 0x2006 h s
     r = s.setPpu { s.ppu with ppuBus := h, w := !s.ppu.w, t := r.ppu.t, v := r.ppu.v }
        ∧ (s.ppu.w = false →
          r.ppu.t.toNat = (h.toNat % 64) * 256 + t % 256 ∧ r.ppu.v = s.ppu.v)
        ∧ (s.ppu.w = true → r.ppu.t.toNat = t / 256 * 256 + h.toNat ∧ r.ppu.v = r.ppu.t)) ∧
    (s.ppu.w = false →
      let r := memWrite 0x2006 l (memWrite 0x2006 h s)
      r = s.setPpu { s.ppu with ppuBus := l, w := false, t := r.ppu.t, v := r.ppu.t }
        ∧ r.ppu.t.toNat = (h.toNat % 64) * 256 + l.toNat) ∧
    (s.ppu.w = false →
      let r := memWrite 0x2005 l (memWrite 0x2005 h s)
      r = s.setPpu { s.ppu with ppuBus := l, w := false, t := r.ppu.t, fineX := r.ppu.fineX }
        ∧ r.ppu.fineX.toNat = h.toNat % 8
        ∧ r.ppu.t.toNat = (l.toNat % 8) * 4096 + (t / 1024 % 4) * 1024 + (l.toNat / 8) * 32 + h.toNat / 8) ∧
    (s.ppu.w = false →
      let r := memWrite 0x2006 l (memWrite 0x2005 h s)
      r = s.setPpu
          { s.ppu with ppuBus := l, w := false, t := r.ppu.t, v := r.ppu.t, fineX := r.ppu.fineX }
        ∧ r.ppu.fineX.toNat = h.toNat % 8 ∧ r.ppu.t.toNat = t / 256 * 256 + l.toNat) ∧
    (s.ppu.w = false →
      let r := memWrite 0x2005 l (memWrite 0x2006 h s)
      r = s.setPpu { s.ppu with ppuBus := l, w := false, t := r.ppu.t }
        ∧ r.ppu.t.toNat
          = (l.toNat % 8) * 4096 + (h.toNat / 4 % 4) * 1024 + (l.toNat / 8) * 32 + t % 32) ∧
    memWrite 0x2000 h s
      = s.setPpu { s.ppu with ppuBus := h, ctrl := h, t := (memWrite 0x2000 h s).ppu.t } ∧
    (memWrite 0x2000 h s).ppu.t.toNat = t / 4096 * 4096 + (h.toNat % 4) * 1024 + t % 1024 ∧
    memWrite 0x2001 h s = s.setPpu { s.ppu with ppuBus := h, mask := h } ∧
    ∀ a ∈ [(0x2002 : Word), 0x2003, 0x2004], memWrite a h s = s.setPpu { s.ppu with ppuBus := h }

/-! ### The PPU's clock -/

/-- The PPU's counters, vertical blank and NMI request over one clock (R342, R351, R354). -/
def Obligations.VerticalBlankAndCounters : Prop :=
  ∀ (cart : Option Cartridge) (p : Ppu), p.Ok →
    let q := ppuTick cart p
    q.verticalBlank =
      (if p.scanline = 241 ∧ p.cycle = 1 then true
      else if p.scanline = -1 ∧ p.cycle = 1 then false
      else p.verticalBlank) ∧
    q.nmiRequest = ((decide (p.scanline = 241 ∧ p.cycle = 1) && p.ctrl.getLsbD 7) || p.nmiRequest) ∧
    (p.cycle < 340 → q.cycle = p.cycle + 1 ∧ q.scanline = p.scanline) ∧
    (p.cycle = 340 → q.cycle = 0 ∧ q.scanline = if p.scanline = 260 then -1 else p.scanline + 1) ∧
    q.frameCompleted = (decide (p.cycle = 340 ∧ p.scanline = 260) || p.frameCompleted)

/-- The frame law: from (-1, 0) the frame flag is set on exactly the 89342nd clock, back at (-1, 0); the
82524th clock is the one that sets vertical blank and, with NMI enabled, raises the one request of the
frame (R357). -/
def Obligations.FrameLaw : Prop :=
  ∀ (cart : Option Cartridge) (p : Ppu), p.scanline = -1 → p.cycle = 0 →
    p.frameCompleted = false → p.nmiRequest = false →
    let at_ := fun n => (ppuTick cart)^[n] p
    (∀ n < 89342, (at_ n).frameCompleted = false) ∧
    (at_ 89342).frameCompleted = true ∧ (at_ 89342).scanline = -1 ∧ (at_ 89342).cycle = 0 ∧
    (at_ 82523).scanline = 241 ∧ (at_ 82523).cycle = 1 ∧
    (∀ n ≤ 82523, (at_ n).nmiRequest = false) ∧
    (at_ 82524).verticalBlank = true ∧ (at_ 82524).nmiRequest = p.ctrl.getLsbD 7 ∧
    ∀ n < 89342, (at_ n).scanline = 241 → (at_ n).cycle = 1 → n = 82523

/-- The pixel sink receives one pixel per visible cycle: with the background off the universal background
colour, with it on the palette entry that bit `15 - fine_x` of the four shifters selects (R352, R353). -/
def Obligations.PixelOutput : Prop :=
  ∀ (cart : Option Cartridge) (p : Ppu),
    let t := ppuTick cart p
    let bit := fun (w : Word) => (w.getLsbD (15 - p.fineX.toNat)).toNat
    (t.pixel ≠ none ↔ 0 ≤ p.scanline ∧ p.scanline ≤ 239 ∧ 1 ≤ p.cycle ∧ p.cycle ≤ 256) ∧
    ∀ q, t.pixel = some q → q.x + 1 = p.cycle ∧ (q.y : Int) = p.scanline ∧
      (p.mask.getLsbD 3 = false →
        q.colour.toNat
          = (p.palette.read 0 &&& (if p.mask.getLsbD 0 then 0x30 else 0x3F)).toNat) ∧
      (p.mask.getLsbD 3 = true →
        q.colour.toNat
          = (ppuRead cart p
              (0x3F00 + BitVec.ofNat 16
                (8 * bit t.bgShifterAttribHi + 4 * bit t.bgShifterAttribLo
                  + 2 * bit t.bgShifterPatternHi + bit t.bgShifterPatternLo)) &&& 0x3F).toNat)

/-- The scroll updates of one PPU clock, with `v` and `t` as numbers: coarse X at the end of each tile, and
Y too at cycle 256; X from `t` at cycle 257; Y from `t` at cycles 280 to 304 of the pre-render line; nothing
elsewhere or with rendering disabled (R340, R343, R350, R355, R356). -/
def Obligations.ScrollUpdates : Prop :=
  ∀ (cart : Option Cartridge) (p : Ppu),
    let v := p.v.toNat
    let t := p.t.toNat
    (ppuTick cart p).v.toNat =
      (if ¬(onRenderLine p = true ∧ (p.mask.getLsbD 3 || p.mask.getLsbD 4) = true) then v
      else if p.cycle = 256 then scrollDown (scrollRight v)
      else if p.cycle = 257 then scrollCopyX v t
      else if p.cycle % 8 = 0 ∧ ((8 ≤ p.cycle ∧ p.cycle ≤ 248) ∨ (328 ≤ p.cycle ∧ p.cycle ≤ 336)) then
        scrollRight v
      else if p.scanline = -1 ∧ 280 ≤ p.cycle ∧ p.cycle ≤ 304 then scrollCopyY v t
      else v)

/-- The background fetches and shifters of one PPU clock (R340, R343 to R350): which of the four latches
each phase loads and from which address, and when the shifters shift and reload. -/
def Obligations.BackgroundFetches : Prop :=
  ∀ (cart : Option Cartridge) (p : Ppu),
    let q := ppuTick cart p
    let v := p.v.toNat
    let phase := fun (n : Nat) => onRenderLine p = true ∧ inFetchWindow p.cycle = true ∧ (p.cycle - 1) % 8 = n
    let row := (if p.ctrl.getLsbD 4 then 0x1000 else 0) + 16 * p.bgNextTileId.toNat + v / 4096
    let shifted := fun (w : Word) =>
      if onRenderLine p = true ∧ inFetchWindow p.cycle = true ∧ p.mask.getLsbD 3 = true then w <<< 1 else w
    let reloaded := fun (w : Word) (b : Byte) =>
      if phase 0 then shifted w &&& 0xFF00 ||| b.setWidth 16 else shifted w
    q.bgNextTileId.toNat =
      (if phase 0 ∨ (onRenderLine p = true ∧ (p.cycle = 338 ∨ p.cycle = 340)) then
        (ppuRead cart p (BitVec.ofNat 16 (0x2000 + v % 4096))).toNat
      else p.bgNextTileId.toNat) ∧
    q.bgNextTileAttrib.toNat =
      (if phase 2 then
        (ppuRead cart p
            (BitVec.ofNat 16 (0x23C0 + v / 1024 % 4 * 1024 + v / 128 % 8 * 8 + v / 4 % 8))).toNat
          / 2 ^ (4 * (v / 64 % 2) + 2 * (v / 2 % 2)) % 4
      else p.bgNextTileAttrib.toNat) ∧
    q.bgNextTileLsb =
      (if phase 4 then ppuRead cart p (BitVec.ofNat 16 row) else p.bgNextTileLsb) ∧
    q.bgNextTileMsb =
      (if phase 6 then ppuRead cart p (BitVec.ofNat 16 (row + 8)) else p.bgNextTileMsb) ∧
    q.bgShifterPatternLo = reloaded p.bgShifterPatternLo p.bgNextTileLsb ∧
    q.bgShifterPatternHi = reloaded p.bgShifterPatternHi p.bgNextTileMsb ∧
    q.bgShifterAttribLo
      = reloaded p.bgShifterAttribLo (if p.bgNextTileAttrib.getLsbD 0 then 0xFF else 0x00) ∧
    q.bgShifterAttribHi
      = reloaded p.bgShifterAttribHi (if p.bgNextTileAttrib.getLsbD 1 then 0xFF else 0x00)

/-- With rendering disabled a PPU clock leaves `v`, `t`, `fine_x`, the control registers and every
memory; the PPU's clock never changes the CPU, RAM, the cartridge or the bus (R340, R345, R355, R356). -/
def Obligations.PpuClockFrame : Prop :=
  ∀ s : State,
    let t := ppuClock s
    t.cpu = s.cpu ∧ t.ram = s.ram ∧ t.mem = s.mem ∧ t.cart = s.cart ∧ t.sysClock = s.sysClock ∧
    t.ppu.ctrl = s.ppu.ctrl ∧ t.ppu.mask = s.ppu.mask ∧ t.ppu.t = s.ppu.t ∧
    t.ppu.fineX = s.ppu.fineX ∧ t.ppu.w = s.ppu.w ∧ t.ppu.ppuBus = s.ppu.ppuBus ∧
    t.ppu.dataBuffer = s.ppu.dataBuffer ∧ t.ppu.nt0 = s.ppu.nt0 ∧ t.ppu.nt1 = s.ppu.nt1 ∧
    t.ppu.palette = s.ppu.palette ∧
    (s.ppu.mask.getLsbD 3 = false → s.ppu.mask.getLsbD 4 = false → t.ppu.v = s.ppu.v)

/-! ### Invariants -/

/-- Every step keeps the machine well formed (R20 to R61, R165; log 8). -/
def Obligations.StepKeepsOk : Prop := ∀ s t : State, s.Ok → step s = .next t → t.Ok

/-- The state after reset is well formed, and holds no program image. The values of the draws in it are the
model's choice (log 2, 3, 4); this statement does not depend on them. -/
def Obligations.ResetIsOk : Prop := State.reset.Ok ∧ RomInstalled State.reset

/-- Every step keeps PRG ROM readable as the cartridge holds it, and the cartridge but for its CHR RAM: no
program changes what is read from 0x4000 up (R42, R76, R77, R96, R110). -/
def Obligations.StepKeepsTheRom : Prop :=
  ∀ s t : State, step s = .next t → s.mem.wf = true → RomInstalled s →
    RomInstalled t ∧ t.params = s.params ∧
    (s.cart = none → t.cart = none) ∧
    ∀ c, s.cart = some c → ∃ c', t.cart = some c' ∧ c'.prg = c.prg ∧ c'.prgBanks = c.prgBanks ∧
      c'.chrBanks = c.chrBanks ∧ c'.mapper = c.mapper ∧ c'.mirroring = c.mirroring ∧
      (c.chrBanks ≠ 0 → c'.chr = c.chr)

/-- Every host operation that gives a next state keeps the machine well formed and its program image installed;
boot gives such a state; so every state of every run, with any host operations in any order, is one (R63, R316,
R403, D41). That an INVALID count lies in the range of `Params.ok` is the model's choice (log 8). -/
def Obligations.ReachableStatesAreOk : Prop :=
  (∀ (op : HostOp) (s t : State), hostOp op s = .next t → s.Ok → RomInstalled s →
    t.Ok ∧ RomInstalled t) ∧
  (∀ (params : Params) (draws : PowerOn) (image chrDraw : List Byte) (s : State), params.ok = true →
    boot params draws image chrDraw = .next s → s.Ok ∧ RomInstalled s) ∧
  ∀ s : State, Reachable s → s.Ok ∧ RomInstalled s
end

