-- ==== Sys2Proof/Laws/Bits.lean ====
section
/-!
SUPPORT. Laws of the bit-field and byte-order helpers and of the flags of P.
-/

namespace Sys2Proof.Machine

open Sys2Proof

/-- Writing a flag changes that flag and no other (10_state.md R26). -/
theorem flag_putBit (b : Byte) (i j : Nat) (on : Bool) (hi : i < 8) :
    flag (putBit b i on) j = if j = i then on else flag b j := by
  simp only [flag, putBit]
  by_cases hj : j < 8
  · interval_cases i <;> interval_cases j <;> cases on <;> simp
  · have h1 : ∀ c : Byte, c.getLsbD j = false := fun c => BitVec.getLsbD_of_ge c j (by omega)
    rw [h1, h1, if_neg (by omega)]

theorem flag_putBit_self (b : Byte) (i : Nat) (on : Bool) (hi : i < 8) :
    flag (putBit b i on) i = on := by simp [flag_putBit b i i on hi]

theorem flag_putBit_ne (b : Byte) (i j : Nat) (on : Bool) (hi : i < 8) (h : j ≠ i) :
    flag (putBit b i on) j = flag b j := by simp [flag_putBit b i j on hi, h]

/-- Two status bytes with the same flags are the same byte. -/
theorem status_ext {p q : Byte} (h : ∀ i < 8, flag p i = flag q i) : p = q :=
  BitVec.eq_of_getLsbD_eq (fun i hi => h i hi)

theorem getLsbD_word16 (hi lo : Byte) (i : Nat) :
    (word16 hi lo).getLsbD i = if i < 8 then lo.getLsbD i else hi.getLsbD (i - 8) := by
  have h := BitVec.getLsbD_append (x := hi) (y := lo) (i := i)
  simpa [word16] using h

@[simp] theorem hiByte_word16 (hi lo : Byte) : hiByte (word16 hi lo) = hi := by
  apply BitVec.eq_of_getLsbD_eq
  intro i hi
  simp [hiByte, getLsbD_word16, hi]

@[simp] theorem loByte_word16 (hi lo : Byte) : loByte (word16 hi lo) = lo := by
  apply BitVec.eq_of_getLsbD_eq
  intro i hi
  simp [loByte, getLsbD_word16, hi]

@[simp] theorem word16_hiByte_loByte (w : Word) : word16 (hiByte w) (loByte w) = w := by
  apply BitVec.eq_of_getLsbD_eq
  intro i hi
  rw [getLsbD_word16]
  simp only [hiByte, loByte, BitVec.getLsbD_extractLsb']
  split
  · simp_all
  · rw [show 8 + (i - 8) = i by omega, show decide (i - 8 < 8) = true by simp; omega,
      Bool.true_and]

theorem ramIndex_eq (a : Word) : ramIndex a = a.toNat % 2048 := by
  simp only [ramIndex, BitVec.toNat_and]
  exact Nat.and_two_pow_sub_one_eq_mod _ 11

theorem regIndex_eq (a : Word) : regIndex a = a.toNat % 8 := by
  simp only [regIndex, BitVec.toNat_and]
  exact Nat.and_two_pow_sub_one_eq_mod _ 3

theorem ramIndex_lt (a : Word) : ramIndex a < 2048 := by rw [ramIndex_eq]; omega

theorem toNat_zext16 (b : Byte) : (zext16 b).toNat = b.toNat := by
  simp [zext16]; omega

theorem toNat_stackAddr (sp : Byte) : (stackAddr sp).toNat = 256 + sp.toNat := by
  simp only [stackAddr, BitVec.toNat_add, toNat_zext16]
  have := sp.isLt
  simp; omega

@[simp] theorem inRam_stackAddr (sp : Byte) : inRam (stackAddr sp) = true := by
  have := sp.isLt
  simp only [inRam, toNat_stackAddr]; exact decide_eq_true (by omega)

@[simp] theorem inRam_zext16 (b : Byte) : inRam (zext16 b) = true := by
  have := b.isLt
  simp only [inRam, toNat_zext16]; exact decide_eq_true (by omega)

theorem ramIndex_stackAddr (sp : Byte) : ramIndex (stackAddr sp) = 256 + sp.toNat := by
  have := sp.isLt
  rw [ramIndex_eq, toNat_stackAddr]; omega

theorem ramIndex_zext16 (b : Byte) : ramIndex (zext16 b) = b.toNat := by
  have := b.isLt
  rw [ramIndex_eq, toNat_zext16]; omega

/-- A word as a number, from its bytes. -/
theorem toNat_word16 (hi lo : Byte) : (word16 hi lo).toNat = 256 * hi.toNat + lo.toNat := by
  have := lo.isLt
  simp only [word16, BitVec.toNat_append]
  rw [← Nat.shiftLeft_add_eq_or_of_lt this]
  simp [Nat.shiftLeft_eq]
  omega

end Sys2Proof.Machine
end

