-- ==== Sys2Proof/Laws/Memory.lean ====
section
/-!
SUPPORT. Memory arrays: every operation keeps the canonical form; a read after a write.
-/

namespace Sys2Proof.Machine

open Sys2Proof

theorem Memory.wfFrom_cons {lo a : Nat} {b : Byte} {m : Memory} :
    Memory.wfFrom lo ((a, b) :: m) = true ↔
      lo ≤ a ∧ b ≠ unlistedByte ∧ Memory.wfFrom (a + 1) m = true := by
  simp [Memory.wfFrom, and_assoc]

theorem Memory.wfFrom_mono {lo lo' : Nat} (h : lo' ≤ lo) :
    ∀ {m : Memory}, Memory.wfFrom lo m = true → Memory.wfFrom lo' m = true
  | [], _ => rfl
  | (_, _) :: _, hm => by
    rw [Memory.wfFrom_cons] at hm ⊢
    exact ⟨by omega, hm.2⟩

/-- Below its first index an array in canonical form reads as unlisted. -/
theorem Memory.read_of_wfFrom {lo i : Nat} (hi : i < lo) :
    ∀ {m : Memory}, Memory.wfFrom lo m = true → Memory.read m i = unlistedByte
  | [], _ => rfl
  | (a, b) :: m, hm => by
    rw [Memory.wfFrom_cons] at hm
    simp only [Memory.read]
    rw [if_neg (by omega), if_pos (by omega)]

/-- A write keeps the canonical form. -/
theorem Memory.wfFrom_write {lo i : Nat} (v : Byte) (hi : lo ≤ i) :
    ∀ {m : Memory}, Memory.wfFrom lo m = true → Memory.wfFrom lo (Memory.write m i v) = true
  | [], _ => by
    simp only [Memory.write]
    split
    · rfl
    · rw [Memory.wfFrom_cons]; exact ⟨hi, ‹_›, rfl⟩
  | (a, b) :: m, hm => by
    have hc := Memory.wfFrom_cons.mp hm
    simp only [Memory.write]
    split
    · split
      · exact hm
      · rw [Memory.wfFrom_cons, Memory.wfFrom_cons]
        exact ⟨hi, ‹_›, by omega, hc.2⟩
    · split
      · subst i
        split
        · exact Memory.wfFrom_mono (by omega) hc.2.2
        · rw [Memory.wfFrom_cons]; exact ⟨hi, ‹_›, hc.2.2⟩
      · rw [Memory.wfFrom_cons]
        exact ⟨hc.1, hc.2.1, Memory.wfFrom_write v (by omega) hc.2.2⟩

theorem Memory.wf_write {m : Memory} (i : Nat) (v : Byte) (h : m.wf = true) :
    Memory.wf (Memory.write m i v) = true := Memory.wfFrom_write v (Nat.zero_le i) h

theorem Memory.read_write_from {lo i j : Nat} (v : Byte) :
    ∀ {m : Memory}, Memory.wfFrom lo m = true →
      Memory.read (Memory.write m i v) j = if j = i then v else Memory.read m j
  | [], _ => by
    simp only [Memory.write]
    split
    · simp only [Memory.read]; split <;> simp_all
    · simp only [Memory.read]; split <;> simp
  | (a, b) :: m, hm => by
    have hc := Memory.wfFrom_cons.mp hm
    have ih := Memory.read_write_from (i := i) (j := j) v hc.2.2
    have hnil : j ≤ a → Memory.read m j = unlistedByte :=
      fun h => Memory.read_of_wfFrom (by omega) hc.2.2
    simp only [Memory.write]
    split
    · split
      · by_cases hj : j = i
        · subst j; simp [Memory.read, *]; omega
        · simp [hj]
      · by_cases hj : j = i
        · simp [Memory.read, hj]
        · simp only [Memory.read, if_neg hj]
          by_cases h1 : j < i
          · simp [h1, show ¬ j = a by omega, show j < a by omega]
          · simp [h1]
    · split
      · subst i
        split
        · by_cases hj : j = a
          · simp [hj, ‹v = unlistedByte›, Memory.read_of_wfFrom (Nat.lt_succ_self a) hc.2.2]
          · simp only [Memory.read, if_neg hj]
            by_cases h1 : j < a
            · simp [h1, hnil (by omega)]
            · simp [h1]
        · by_cases hj : j = a
          · simp [Memory.read, hj]
          · simp [Memory.read, hj]
      · simp only [Memory.read, ih]
        by_cases hj : j = i
        · simp [hj, show ¬ i = a by omega, show ¬ i < a by omega]
        · simp [hj]

/-- A read after a write: the written byte at the written index, every other index as before. -/
theorem Memory.read_write {m : Memory} (h : m.wf = true) (i j : Nat) (v : Byte) :
    Memory.read (Memory.write m i v) j = if j = i then v else Memory.read m j :=
  Memory.read_write_from v h

theorem Memory.below_cons {n a : Nat} {b : Byte} {m : Memory} :
    Memory.below n ((a, b) :: m) = true ↔ a < n ∧ Memory.below n m = true := by
  simp only [Memory.below, List.all_cons, Bool.and_eq_true, decide_eq_true_eq]

/-- A write below a bound keeps every index below it. -/
theorem Memory.below_write {n i : Nat} (v : Byte) (hi : i < n) :
    ∀ {m : Memory}, Memory.below n m = true → Memory.below n (Memory.write m i v) = true
  | [], _ => by
    simp only [Memory.write]
    split
    · rfl
    · exact Memory.below_cons.mpr ⟨hi, rfl⟩
  | (a, b) :: m, hm => by
    have hc := Memory.below_cons.mp hm
    simp only [Memory.write]
    split
    · split
      · exact hm
      · exact Memory.below_cons.mpr ⟨hi, hm⟩
    · split
      · split
        · exact hc.2
        · exact Memory.below_cons.mpr ⟨hi, hc.2⟩
      · exact Memory.below_cons.mpr ⟨hc.1, Memory.below_write v hi hc.2⟩

/-- A list of bytes becomes an array in canonical form. -/
theorem Memory.wfFrom_ofBytes :
    ∀ (bs : List Byte) (base : Nat), Memory.wfFrom base (Memory.ofBytes base bs) = true
  | [], _ => rfl
  | b :: bs, base => by
    have ih := Memory.wfFrom_ofBytes bs (base + 1)
    simp only [Memory.ofBytes]
    split
    · exact Memory.wfFrom_mono (by omega) ih
    · rw [Memory.wfFrom_cons]; exact ⟨le_refl _, ‹_›, ih⟩

theorem Memory.wf_ofBytes (base : Nat) (bs : List Byte) :
    Memory.wf (Memory.ofBytes base bs) = true :=
  Memory.wfFrom_mono (Nat.zero_le base) (Memory.wfFrom_ofBytes bs base)

theorem Memory.below_ofBytes (n : Nat) :
    ∀ (bs : List Byte) (base : Nat), base + bs.length ≤ n →
      Memory.below n (Memory.ofBytes base bs) = true
  | [], _, _ => rfl
  | b :: bs, base, h => by
    have ih := Memory.below_ofBytes n bs (base + 1) (by simp at h; omega)
    simp only [Memory.ofBytes]
    split
    · exact ih
    · have : base < n := by simp at h; omega
      simpa [Memory.below, this] using ih

/-- What an array made from a list of bytes reads as. -/
theorem Memory.read_ofBytes :
    ∀ (bs : List Byte) (base i : Nat),
      Memory.read (Memory.ofBytes base bs) i
        = if base ≤ i then bs.getD (i - base) unlistedByte else unlistedByte
  | [], base, i => by simp [Memory.ofBytes, Memory.read]
  | b :: bs, base, i => by
    have ih := Memory.read_ofBytes bs (base + 1) i
    simp only [Memory.ofBytes]
    split
    · rw [ih]
      rcases Nat.lt_trichotomy i base with h | h | h
      · simp [show ¬ base + 1 ≤ i by omega, show ¬ base ≤ i by omega]
      · subst h; simp_all
      · obtain ⟨k, rfl⟩ := Nat.exists_eq_add_of_lt h
        simp [show base + 1 ≤ base + k + 1 by omega, show base ≤ base + k + 1 by omega,
          show base + k + 1 - (base + 1) = k by omega, show base + k + 1 - base = k + 1 by omega]
    · simp only [Memory.read]
      rcases Nat.lt_trichotomy i base with h | h | h
      · simp [show ¬ i = base by omega, h, show ¬ base ≤ i by omega]
      · subst h; simp
      · rw [if_neg (by omega), if_neg (by omega), ih]
        obtain ⟨k, rfl⟩ := Nat.exists_eq_add_of_lt h
        simp [show base + 1 ≤ base + k + 1 by omega, show base ≤ base + k + 1 by omega,
          show base + k + 1 - (base + 1) = k by omega, show base + k + 1 - base = k + 1 by omega]

end Sys2Proof.Machine
end

