-- ==== Sys2Proof/Laws/State.lean ====
section
/-!
SUPPORT. What each register write changes and what it leaves, one lemma per field, so that no proof
unfolds a record update.
-/

namespace Sys2Proof.Machine

open Sys2Proof

variable (s : State)

@[simp] theorem State.setA_a (v : Byte) : (s.setA v).cpu.a = v := rfl
@[simp] theorem State.setA_x (v : Byte) : (s.setA v).cpu.x = s.cpu.x := rfl
@[simp] theorem State.setA_y (v : Byte) : (s.setA v).cpu.y = s.cpu.y := rfl
@[simp] theorem State.setA_sp (v : Byte) : (s.setA v).cpu.sp = s.cpu.sp := rfl
@[simp] theorem State.setA_p (v : Byte) : (s.setA v).cpu.p = s.cpu.p := rfl
@[simp] theorem State.setA_pc (v : Byte) : (s.setA v).cpu.pc = s.cpu.pc := rfl
@[simp] theorem State.setA_addrAbs (v : Byte) : (s.setA v).cpu.addrAbs = s.cpu.addrAbs := rfl
@[simp] theorem State.setA_addrRel (v : Byte) : (s.setA v).cpu.addrRel = s.cpu.addrRel := rfl
@[simp] theorem State.setA_fetched (v : Byte) : (s.setA v).cpu.fetched = s.cpu.fetched := rfl
@[simp] theorem State.setA_opcode (v : Byte) : (s.setA v).cpu.opcode = s.cpu.opcode := rfl
@[simp] theorem State.setA_cycles (v : Byte) : (s.setA v).cpu.cycles = s.cpu.cycles := rfl
@[simp] theorem State.setA_ppu (v : Byte) : (s.setA v).ppu = s.ppu := rfl
@[simp] theorem State.setA_ram (v : Byte) : (s.setA v).ram = s.ram := rfl
@[simp] theorem State.setA_mem (v : Byte) : (s.setA v).mem = s.mem := rfl
@[simp] theorem State.setA_sysClock (v : Byte) : (s.setA v).sysClock = s.sysClock := rfl
@[simp] theorem State.setA_cart (v : Byte) : (s.setA v).cart = s.cart := rfl
@[simp] theorem State.setA_params (v : Byte) : (s.setA v).params = s.params := rfl

@[simp] theorem State.setX_a (v : Byte) : (s.setX v).cpu.a = s.cpu.a := rfl
@[simp] theorem State.setX_x (v : Byte) : (s.setX v).cpu.x = v := rfl
@[simp] theorem State.setX_y (v : Byte) : (s.setX v).cpu.y = s.cpu.y := rfl
@[simp] theorem State.setX_sp (v : Byte) : (s.setX v).cpu.sp = s.cpu.sp := rfl
@[simp] theorem State.setX_p (v : Byte) : (s.setX v).cpu.p = s.cpu.p := rfl
@[simp] theorem State.setX_pc (v : Byte) : (s.setX v).cpu.pc = s.cpu.pc := rfl
@[simp] theorem State.setX_addrAbs (v : Byte) : (s.setX v).cpu.addrAbs = s.cpu.addrAbs := rfl
@[simp] theorem State.setX_addrRel (v : Byte) : (s.setX v).cpu.addrRel = s.cpu.addrRel := rfl
@[simp] theorem State.setX_fetched (v : Byte) : (s.setX v).cpu.fetched = s.cpu.fetched := rfl
@[simp] theorem State.setX_opcode (v : Byte) : (s.setX v).cpu.opcode = s.cpu.opcode := rfl
@[simp] theorem State.setX_cycles (v : Byte) : (s.setX v).cpu.cycles = s.cpu.cycles := rfl
@[simp] theorem State.setX_ppu (v : Byte) : (s.setX v).ppu = s.ppu := rfl
@[simp] theorem State.setX_ram (v : Byte) : (s.setX v).ram = s.ram := rfl
@[simp] theorem State.setX_mem (v : Byte) : (s.setX v).mem = s.mem := rfl
@[simp] theorem State.setX_sysClock (v : Byte) : (s.setX v).sysClock = s.sysClock := rfl
@[simp] theorem State.setX_cart (v : Byte) : (s.setX v).cart = s.cart := rfl
@[simp] theorem State.setX_params (v : Byte) : (s.setX v).params = s.params := rfl

@[simp] theorem State.setY_a (v : Byte) : (s.setY v).cpu.a = s.cpu.a := rfl
@[simp] theorem State.setY_x (v : Byte) : (s.setY v).cpu.x = s.cpu.x := rfl
@[simp] theorem State.setY_y (v : Byte) : (s.setY v).cpu.y = v := rfl
@[simp] theorem State.setY_sp (v : Byte) : (s.setY v).cpu.sp = s.cpu.sp := rfl
@[simp] theorem State.setY_p (v : Byte) : (s.setY v).cpu.p = s.cpu.p := rfl
@[simp] theorem State.setY_pc (v : Byte) : (s.setY v).cpu.pc = s.cpu.pc := rfl
@[simp] theorem State.setY_addrAbs (v : Byte) : (s.setY v).cpu.addrAbs = s.cpu.addrAbs := rfl
@[simp] theorem State.setY_addrRel (v : Byte) : (s.setY v).cpu.addrRel = s.cpu.addrRel := rfl
@[simp] theorem State.setY_fetched (v : Byte) : (s.setY v).cpu.fetched = s.cpu.fetched := rfl
@[simp] theorem State.setY_opcode (v : Byte) : (s.setY v).cpu.opcode = s.cpu.opcode := rfl
@[simp] theorem State.setY_cycles (v : Byte) : (s.setY v).cpu.cycles = s.cpu.cycles := rfl
@[simp] theorem State.setY_ppu (v : Byte) : (s.setY v).ppu = s.ppu := rfl
@[simp] theorem State.setY_ram (v : Byte) : (s.setY v).ram = s.ram := rfl
@[simp] theorem State.setY_mem (v : Byte) : (s.setY v).mem = s.mem := rfl
@[simp] theorem State.setY_sysClock (v : Byte) : (s.setY v).sysClock = s.sysClock := rfl
@[simp] theorem State.setY_cart (v : Byte) : (s.setY v).cart = s.cart := rfl
@[simp] theorem State.setY_params (v : Byte) : (s.setY v).params = s.params := rfl

@[simp] theorem State.setSp_a (v : Byte) : (s.setSp v).cpu.a = s.cpu.a := rfl
@[simp] theorem State.setSp_x (v : Byte) : (s.setSp v).cpu.x = s.cpu.x := rfl
@[simp] theorem State.setSp_y (v : Byte) : (s.setSp v).cpu.y = s.cpu.y := rfl
@[simp] theorem State.setSp_sp (v : Byte) : (s.setSp v).cpu.sp = v := rfl
@[simp] theorem State.setSp_p (v : Byte) : (s.setSp v).cpu.p = s.cpu.p := rfl
@[simp] theorem State.setSp_pc (v : Byte) : (s.setSp v).cpu.pc = s.cpu.pc := rfl
@[simp] theorem State.setSp_addrAbs (v : Byte) : (s.setSp v).cpu.addrAbs = s.cpu.addrAbs := rfl
@[simp] theorem State.setSp_addrRel (v : Byte) : (s.setSp v).cpu.addrRel = s.cpu.addrRel := rfl
@[simp] theorem State.setSp_fetched (v : Byte) : (s.setSp v).cpu.fetched = s.cpu.fetched := rfl
@[simp] theorem State.setSp_opcode (v : Byte) : (s.setSp v).cpu.opcode = s.cpu.opcode := rfl
@[simp] theorem State.setSp_cycles (v : Byte) : (s.setSp v).cpu.cycles = s.cpu.cycles := rfl
@[simp] theorem State.setSp_ppu (v : Byte) : (s.setSp v).ppu = s.ppu := rfl
@[simp] theorem State.setSp_ram (v : Byte) : (s.setSp v).ram = s.ram := rfl
@[simp] theorem State.setSp_mem (v : Byte) : (s.setSp v).mem = s.mem := rfl
@[simp] theorem State.setSp_sysClock (v : Byte) : (s.setSp v).sysClock = s.sysClock := rfl
@[simp] theorem State.setSp_cart (v : Byte) : (s.setSp v).cart = s.cart := rfl
@[simp] theorem State.setSp_params (v : Byte) : (s.setSp v).params = s.params := rfl

@[simp] theorem State.setP_a (v : Byte) : (s.setP v).cpu.a = s.cpu.a := rfl
@[simp] theorem State.setP_x (v : Byte) : (s.setP v).cpu.x = s.cpu.x := rfl
@[simp] theorem State.setP_y (v : Byte) : (s.setP v).cpu.y = s.cpu.y := rfl
@[simp] theorem State.setP_sp (v : Byte) : (s.setP v).cpu.sp = s.cpu.sp := rfl
@[simp] theorem State.setP_p (v : Byte) : (s.setP v).cpu.p = v := rfl
@[simp] theorem State.setP_pc (v : Byte) : (s.setP v).cpu.pc = s.cpu.pc := rfl
@[simp] theorem State.setP_addrAbs (v : Byte) : (s.setP v).cpu.addrAbs = s.cpu.addrAbs := rfl
@[simp] theorem State.setP_addrRel (v : Byte) : (s.setP v).cpu.addrRel = s.cpu.addrRel := rfl
@[simp] theorem State.setP_fetched (v : Byte) : (s.setP v).cpu.fetched = s.cpu.fetched := rfl
@[simp] theorem State.setP_opcode (v : Byte) : (s.setP v).cpu.opcode = s.cpu.opcode := rfl
@[simp] theorem State.setP_cycles (v : Byte) : (s.setP v).cpu.cycles = s.cpu.cycles := rfl
@[simp] theorem State.setP_ppu (v : Byte) : (s.setP v).ppu = s.ppu := rfl
@[simp] theorem State.setP_ram (v : Byte) : (s.setP v).ram = s.ram := rfl
@[simp] theorem State.setP_mem (v : Byte) : (s.setP v).mem = s.mem := rfl
@[simp] theorem State.setP_sysClock (v : Byte) : (s.setP v).sysClock = s.sysClock := rfl
@[simp] theorem State.setP_cart (v : Byte) : (s.setP v).cart = s.cart := rfl
@[simp] theorem State.setP_params (v : Byte) : (s.setP v).params = s.params := rfl

@[simp] theorem State.setPc_a (v : Word) : (s.setPc v).cpu.a = s.cpu.a := rfl
@[simp] theorem State.setPc_x (v : Word) : (s.setPc v).cpu.x = s.cpu.x := rfl
@[simp] theorem State.setPc_y (v : Word) : (s.setPc v).cpu.y = s.cpu.y := rfl
@[simp] theorem State.setPc_sp (v : Word) : (s.setPc v).cpu.sp = s.cpu.sp := rfl
@[simp] theorem State.setPc_p (v : Word) : (s.setPc v).cpu.p = s.cpu.p := rfl
@[simp] theorem State.setPc_pc (v : Word) : (s.setPc v).cpu.pc = v := rfl
@[simp] theorem State.setPc_addrAbs (v : Word) : (s.setPc v).cpu.addrAbs = s.cpu.addrAbs := rfl
@[simp] theorem State.setPc_addrRel (v : Word) : (s.setPc v).cpu.addrRel = s.cpu.addrRel := rfl
@[simp] theorem State.setPc_fetched (v : Word) : (s.setPc v).cpu.fetched = s.cpu.fetched := rfl
@[simp] theorem State.setPc_opcode (v : Word) : (s.setPc v).cpu.opcode = s.cpu.opcode := rfl
@[simp] theorem State.setPc_cycles (v : Word) : (s.setPc v).cpu.cycles = s.cpu.cycles := rfl
@[simp] theorem State.setPc_ppu (v : Word) : (s.setPc v).ppu = s.ppu := rfl
@[simp] theorem State.setPc_ram (v : Word) : (s.setPc v).ram = s.ram := rfl
@[simp] theorem State.setPc_mem (v : Word) : (s.setPc v).mem = s.mem := rfl
@[simp] theorem State.setPc_sysClock (v : Word) : (s.setPc v).sysClock = s.sysClock := rfl
@[simp] theorem State.setPc_cart (v : Word) : (s.setPc v).cart = s.cart := rfl
@[simp] theorem State.setPc_params (v : Word) : (s.setPc v).params = s.params := rfl

@[simp] theorem State.setAddrAbs_a (v : Word) : (s.setAddrAbs v).cpu.a = s.cpu.a := rfl
@[simp] theorem State.setAddrAbs_x (v : Word) : (s.setAddrAbs v).cpu.x = s.cpu.x := rfl
@[simp] theorem State.setAddrAbs_y (v : Word) : (s.setAddrAbs v).cpu.y = s.cpu.y := rfl
@[simp] theorem State.setAddrAbs_sp (v : Word) : (s.setAddrAbs v).cpu.sp = s.cpu.sp := rfl
@[simp] theorem State.setAddrAbs_p (v : Word) : (s.setAddrAbs v).cpu.p = s.cpu.p := rfl
@[simp] theorem State.setAddrAbs_pc (v : Word) : (s.setAddrAbs v).cpu.pc = s.cpu.pc := rfl
@[simp] theorem State.setAddrAbs_addrAbs (v : Word) : (s.setAddrAbs v).cpu.addrAbs = v := rfl
@[simp] theorem State.setAddrAbs_addrRel (v : Word) : (s.setAddrAbs v).cpu.addrRel = s.cpu.addrRel := rfl
@[simp] theorem State.setAddrAbs_fetched (v : Word) : (s.setAddrAbs v).cpu.fetched = s.cpu.fetched := rfl
@[simp] theorem State.setAddrAbs_opcode (v : Word) : (s.setAddrAbs v).cpu.opcode = s.cpu.opcode := rfl
@[simp] theorem State.setAddrAbs_cycles (v : Word) : (s.setAddrAbs v).cpu.cycles = s.cpu.cycles := rfl
@[simp] theorem State.setAddrAbs_ppu (v : Word) : (s.setAddrAbs v).ppu = s.ppu := rfl
@[simp] theorem State.setAddrAbs_ram (v : Word) : (s.setAddrAbs v).ram = s.ram := rfl
@[simp] theorem State.setAddrAbs_mem (v : Word) : (s.setAddrAbs v).mem = s.mem := rfl
@[simp] theorem State.setAddrAbs_sysClock (v : Word) : (s.setAddrAbs v).sysClock = s.sysClock := rfl
@[simp] theorem State.setAddrAbs_cart (v : Word) : (s.setAddrAbs v).cart = s.cart := rfl
@[simp] theorem State.setAddrAbs_params (v : Word) : (s.setAddrAbs v).params = s.params := rfl

@[simp] theorem State.setAddrRel_a (v : Word) : (s.setAddrRel v).cpu.a = s.cpu.a := rfl
@[simp] theorem State.setAddrRel_x (v : Word) : (s.setAddrRel v).cpu.x = s.cpu.x := rfl
@[simp] theorem State.setAddrRel_y (v : Word) : (s.setAddrRel v).cpu.y = s.cpu.y := rfl
@[simp] theorem State.setAddrRel_sp (v : Word) : (s.setAddrRel v).cpu.sp = s.cpu.sp := rfl
@[simp] theorem State.setAddrRel_p (v : Word) : (s.setAddrRel v).cpu.p = s.cpu.p := rfl
@[simp] theorem State.setAddrRel_pc (v : Word) : (s.setAddrRel v).cpu.pc = s.cpu.pc := rfl
@[simp] theorem State.setAddrRel_addrAbs (v : Word) : (s.setAddrRel v).cpu.addrAbs = s.cpu.addrAbs := rfl
@[simp] theorem State.setAddrRel_addrRel (v : Word) : (s.setAddrRel v).cpu.addrRel = v := rfl
@[simp] theorem State.setAddrRel_fetched (v : Word) : (s.setAddrRel v).cpu.fetched = s.cpu.fetched := rfl
@[simp] theorem State.setAddrRel_opcode (v : Word) : (s.setAddrRel v).cpu.opcode = s.cpu.opcode := rfl
@[simp] theorem State.setAddrRel_cycles (v : Word) : (s.setAddrRel v).cpu.cycles = s.cpu.cycles := rfl
@[simp] theorem State.setAddrRel_ppu (v : Word) : (s.setAddrRel v).ppu = s.ppu := rfl
@[simp] theorem State.setAddrRel_ram (v : Word) : (s.setAddrRel v).ram = s.ram := rfl
@[simp] theorem State.setAddrRel_mem (v : Word) : (s.setAddrRel v).mem = s.mem := rfl
@[simp] theorem State.setAddrRel_sysClock (v : Word) : (s.setAddrRel v).sysClock = s.sysClock := rfl
@[simp] theorem State.setAddrRel_cart (v : Word) : (s.setAddrRel v).cart = s.cart := rfl
@[simp] theorem State.setAddrRel_params (v : Word) : (s.setAddrRel v).params = s.params := rfl

@[simp] theorem State.setFetched_a (v : Byte) : (s.setFetched v).cpu.a = s.cpu.a := rfl
@[simp] theorem State.setFetched_x (v : Byte) : (s.setFetched v).cpu.x = s.cpu.x := rfl
@[simp] theorem State.setFetched_y (v : Byte) : (s.setFetched v).cpu.y = s.cpu.y := rfl
@[simp] theorem State.setFetched_sp (v : Byte) : (s.setFetched v).cpu.sp = s.cpu.sp := rfl
@[simp] theorem State.setFetched_p (v : Byte) : (s.setFetched v).cpu.p = s.cpu.p := rfl
@[simp] theorem State.setFetched_pc (v : Byte) : (s.setFetched v).cpu.pc = s.cpu.pc := rfl
@[simp] theorem State.setFetched_addrAbs (v : Byte) : (s.setFetched v).cpu.addrAbs = s.cpu.addrAbs := rfl
@[simp] theorem State.setFetched_addrRel (v : Byte) : (s.setFetched v).cpu.addrRel = s.cpu.addrRel := rfl
@[simp] theorem State.setFetched_fetched (v : Byte) : (s.setFetched v).cpu.fetched = v := rfl
@[simp] theorem State.setFetched_opcode (v : Byte) : (s.setFetched v).cpu.opcode = s.cpu.opcode := rfl
@[simp] theorem State.setFetched_cycles (v : Byte) : (s.setFetched v).cpu.cycles = s.cpu.cycles := rfl
@[simp] theorem State.setFetched_ppu (v : Byte) : (s.setFetched v).ppu = s.ppu := rfl
@[simp] theorem State.setFetched_ram (v : Byte) : (s.setFetched v).ram = s.ram := rfl
@[simp] theorem State.setFetched_mem (v : Byte) : (s.setFetched v).mem = s.mem := rfl
@[simp] theorem State.setFetched_sysClock (v : Byte) : (s.setFetched v).sysClock = s.sysClock := rfl
@[simp] theorem State.setFetched_cart (v : Byte) : (s.setFetched v).cart = s.cart := rfl
@[simp] theorem State.setFetched_params (v : Byte) : (s.setFetched v).params = s.params := rfl

@[simp] theorem State.setOpcode_a (v : Byte) : (s.setOpcode v).cpu.a = s.cpu.a := rfl
@[simp] theorem State.setOpcode_x (v : Byte) : (s.setOpcode v).cpu.x = s.cpu.x := rfl
@[simp] theorem State.setOpcode_y (v : Byte) : (s.setOpcode v).cpu.y = s.cpu.y := rfl
@[simp] theorem State.setOpcode_sp (v : Byte) : (s.setOpcode v).cpu.sp = s.cpu.sp := rfl
@[simp] theorem State.setOpcode_p (v : Byte) : (s.setOpcode v).cpu.p = s.cpu.p := rfl
@[simp] theorem State.setOpcode_pc (v : Byte) : (s.setOpcode v).cpu.pc = s.cpu.pc := rfl
@[simp] theorem State.setOpcode_addrAbs (v : Byte) : (s.setOpcode v).cpu.addrAbs = s.cpu.addrAbs := rfl
@[simp] theorem State.setOpcode_addrRel (v : Byte) : (s.setOpcode v).cpu.addrRel = s.cpu.addrRel := rfl
@[simp] theorem State.setOpcode_fetched (v : Byte) : (s.setOpcode v).cpu.fetched = s.cpu.fetched := rfl
@[simp] theorem State.setOpcode_opcode (v : Byte) : (s.setOpcode v).cpu.opcode = v := rfl
@[simp] theorem State.setOpcode_cycles (v : Byte) : (s.setOpcode v).cpu.cycles = s.cpu.cycles := rfl
@[simp] theorem State.setOpcode_ppu (v : Byte) : (s.setOpcode v).ppu = s.ppu := rfl
@[simp] theorem State.setOpcode_ram (v : Byte) : (s.setOpcode v).ram = s.ram := rfl
@[simp] theorem State.setOpcode_mem (v : Byte) : (s.setOpcode v).mem = s.mem := rfl
@[simp] theorem State.setOpcode_sysClock (v : Byte) : (s.setOpcode v).sysClock = s.sysClock := rfl
@[simp] theorem State.setOpcode_cart (v : Byte) : (s.setOpcode v).cart = s.cart := rfl
@[simp] theorem State.setOpcode_params (v : Byte) : (s.setOpcode v).params = s.params := rfl

@[simp] theorem State.setCycles_a (v : Nat) : (s.setCycles v).cpu.a = s.cpu.a := rfl
@[simp] theorem State.setCycles_x (v : Nat) : (s.setCycles v).cpu.x = s.cpu.x := rfl
@[simp] theorem State.setCycles_y (v : Nat) : (s.setCycles v).cpu.y = s.cpu.y := rfl
@[simp] theorem State.setCycles_sp (v : Nat) : (s.setCycles v).cpu.sp = s.cpu.sp := rfl
@[simp] theorem State.setCycles_p (v : Nat) : (s.setCycles v).cpu.p = s.cpu.p := rfl
@[simp] theorem State.setCycles_pc (v : Nat) : (s.setCycles v).cpu.pc = s.cpu.pc := rfl
@[simp] theorem State.setCycles_addrAbs (v : Nat) : (s.setCycles v).cpu.addrAbs = s.cpu.addrAbs := rfl
@[simp] theorem State.setCycles_addrRel (v : Nat) : (s.setCycles v).cpu.addrRel = s.cpu.addrRel := rfl
@[simp] theorem State.setCycles_fetched (v : Nat) : (s.setCycles v).cpu.fetched = s.cpu.fetched := rfl
@[simp] theorem State.setCycles_opcode (v : Nat) : (s.setCycles v).cpu.opcode = s.cpu.opcode := rfl
@[simp] theorem State.setCycles_cycles (v : Nat) : (s.setCycles v).cpu.cycles = v := rfl
@[simp] theorem State.setCycles_ppu (v : Nat) : (s.setCycles v).ppu = s.ppu := rfl
@[simp] theorem State.setCycles_ram (v : Nat) : (s.setCycles v).ram = s.ram := rfl
@[simp] theorem State.setCycles_mem (v : Nat) : (s.setCycles v).mem = s.mem := rfl
@[simp] theorem State.setCycles_sysClock (v : Nat) : (s.setCycles v).sysClock = s.sysClock := rfl
@[simp] theorem State.setCycles_cart (v : Nat) : (s.setCycles v).cart = s.cart := rfl
@[simp] theorem State.setCycles_params (v : Nat) : (s.setCycles v).params = s.params := rfl

@[simp] theorem State.setPpu_cpu (v : Ppu) : (s.setPpu v).cpu = s.cpu := rfl
@[simp] theorem State.setPpu_ppu (v : Ppu) : (s.setPpu v).ppu = v := rfl
@[simp] theorem State.setPpu_ram (v : Ppu) : (s.setPpu v).ram = s.ram := rfl
@[simp] theorem State.setPpu_mem (v : Ppu) : (s.setPpu v).mem = s.mem := rfl
@[simp] theorem State.setPpu_sysClock (v : Ppu) : (s.setPpu v).sysClock = s.sysClock := rfl
@[simp] theorem State.setPpu_cart (v : Ppu) : (s.setPpu v).cart = s.cart := rfl
@[simp] theorem State.setPpu_params (v : Ppu) : (s.setPpu v).params = s.params := rfl

@[simp] theorem State.setCart_cpu (v : Option Cartridge) : (s.setCart v).cpu = s.cpu := rfl
@[simp] theorem State.setCart_ppu (v : Option Cartridge) : (s.setCart v).ppu = s.ppu := rfl
@[simp] theorem State.setCart_ram (v : Option Cartridge) : (s.setCart v).ram = s.ram := rfl
@[simp] theorem State.setCart_mem (v : Option Cartridge) : (s.setCart v).mem = s.mem := rfl
@[simp] theorem State.setCart_sysClock (v : Option Cartridge) : (s.setCart v).sysClock = s.sysClock := rfl
@[simp] theorem State.setCart_cart (v : Option Cartridge) : (s.setCart v).cart = v := rfl
@[simp] theorem State.setCart_params (v : Option Cartridge) : (s.setCart v).params = s.params := rfl

@[simp] theorem State.setRam_cpu (v : Memory) : (s.setRam v).cpu = s.cpu := rfl
@[simp] theorem State.setRam_ppu (v : Memory) : (s.setRam v).ppu = s.ppu := rfl
@[simp] theorem State.setRam_ram (v : Memory) : (s.setRam v).ram = v := rfl
@[simp] theorem State.setRam_mem (v : Memory) : (s.setRam v).mem = s.mem := rfl
@[simp] theorem State.setRam_sysClock (v : Memory) : (s.setRam v).sysClock = s.sysClock := rfl
@[simp] theorem State.setRam_cart (v : Memory) : (s.setRam v).cart = s.cart := rfl
@[simp] theorem State.setRam_params (v : Memory) : (s.setRam v).params = s.params := rfl

@[simp] theorem State.setMem_cpu (v : Memory) : (s.setMem v).cpu = s.cpu := rfl
@[simp] theorem State.setMem_ppu (v : Memory) : (s.setMem v).ppu = s.ppu := rfl
@[simp] theorem State.setMem_ram (v : Memory) : (s.setMem v).ram = s.ram := rfl
@[simp] theorem State.setMem_mem (v : Memory) : (s.setMem v).mem = v := rfl
@[simp] theorem State.setMem_sysClock (v : Memory) : (s.setMem v).sysClock = s.sysClock := rfl
@[simp] theorem State.setMem_cart (v : Memory) : (s.setMem v).cart = s.cart := rfl
@[simp] theorem State.setMem_params (v : Memory) : (s.setMem v).params = s.params := rfl

@[simp] theorem State.setFlag_a (i : Nat) (on : Bool) : (s.setFlag i on).cpu.a = s.cpu.a := rfl
@[simp] theorem State.setFlag_x (i : Nat) (on : Bool) : (s.setFlag i on).cpu.x = s.cpu.x := rfl
@[simp] theorem State.setFlag_y (i : Nat) (on : Bool) : (s.setFlag i on).cpu.y = s.cpu.y := rfl
@[simp] theorem State.setFlag_sp (i : Nat) (on : Bool) : (s.setFlag i on).cpu.sp = s.cpu.sp := rfl
@[simp] theorem State.setFlag_p (i : Nat) (on : Bool) : (s.setFlag i on).cpu.p = putBit s.cpu.p i on := rfl
@[simp] theorem State.setFlag_pc (i : Nat) (on : Bool) : (s.setFlag i on).cpu.pc = s.cpu.pc := rfl
@[simp] theorem State.setFlag_addrAbs (i : Nat) (on : Bool) : (s.setFlag i on).cpu.addrAbs = s.cpu.addrAbs := rfl
@[simp] theorem State.setFlag_addrRel (i : Nat) (on : Bool) : (s.setFlag i on).cpu.addrRel = s.cpu.addrRel := rfl
@[simp] theorem State.setFlag_fetched (i : Nat) (on : Bool) : (s.setFlag i on).cpu.fetched = s.cpu.fetched := rfl
@[simp] theorem State.setFlag_opcode (i : Nat) (on : Bool) : (s.setFlag i on).cpu.opcode = s.cpu.opcode := rfl
@[simp] theorem State.setFlag_cycles (i : Nat) (on : Bool) : (s.setFlag i on).cpu.cycles = s.cpu.cycles := rfl
@[simp] theorem State.setFlag_ppu (i : Nat) (on : Bool) : (s.setFlag i on).ppu = s.ppu := rfl
@[simp] theorem State.setFlag_ram (i : Nat) (on : Bool) : (s.setFlag i on).ram = s.ram := rfl
@[simp] theorem State.setFlag_mem (i : Nat) (on : Bool) : (s.setFlag i on).mem = s.mem := rfl
@[simp] theorem State.setFlag_sysClock (i : Nat) (on : Bool) : (s.setFlag i on).sysClock = s.sysClock := rfl
@[simp] theorem State.setFlag_cart (i : Nat) (on : Bool) : (s.setFlag i on).cart = s.cart := rfl
@[simp] theorem State.setFlag_params (i : Nat) (on : Bool) : (s.setFlag i on).params = s.params := rfl

@[simp] theorem advanceSysClock_cpu : (advanceSysClock s).cpu = s.cpu := rfl
@[simp] theorem advanceSysClock_ppu : (advanceSysClock s).ppu = s.ppu := rfl
@[simp] theorem advanceSysClock_ram : (advanceSysClock s).ram = s.ram := rfl
@[simp] theorem advanceSysClock_mem : (advanceSysClock s).mem = s.mem := rfl
@[simp] theorem advanceSysClock_sysClock : (advanceSysClock s).sysClock = s.sysClock + 1 := rfl
@[simp] theorem advanceSysClock_cart : (advanceSysClock s).cart = s.cart := rfl
@[simp] theorem advanceSysClock_params : (advanceSysClock s).params = s.params := rfl

@[simp] theorem ppuClock_cpu : (ppuClock s).cpu = s.cpu := rfl
@[simp] theorem ppuClock_ppu : (ppuClock s).ppu = ppuTick s.cart s.ppu := rfl
@[simp] theorem ppuClock_ram : (ppuClock s).ram = s.ram := rfl
@[simp] theorem ppuClock_mem : (ppuClock s).mem = s.mem := rfl
@[simp] theorem ppuClock_sysClock : (ppuClock s).sysClock = s.sysClock := rfl
@[simp] theorem ppuClock_cart : (ppuClock s).cart = s.cart := rfl
@[simp] theorem ppuClock_params : (ppuClock s).params = s.params := rfl

end Sys2Proof.Machine
end

