-- ==== Sys2Proof/Laws/Bus.lean ====
section
/-!
SUPPORT. Laws of the bus, the PPU's ports and the stack: what a read returns and changes, what a write
changes, and that neither looks at the CPU's registers.
-/

namespace Sys2Proof.Machine

open Sys2Proof

/-- A state with its CPU registers replaced: the form every register write has. -/
abbrev State.withCpu (s : State) (c : Cpu) : State := { s with cpu := c }

/-! ### Address ranges -/

theorem inRam_iff (a : Word) : inRam a = true ↔ a.toNat < 0x2000 := by
  simp only [inRam, decide_eq_true_eq]; omega

theorem inPpuWindow_iff (a : Word) : inPpuWindow a = true ↔ 0x2000 ≤ a.toNat ∧ a.toNat < 0x4000 := by
  simp only [inPpuWindow, decide_eq_true_eq]; omega

theorem inPpuWindow_eq_false_iff (a : Word) :
    inPpuWindow a = false ↔ a.toNat < 0x2000 ∨ 0x4000 ≤ a.toNat := by
  simp only [inPpuWindow, decide_eq_false_iff_not]; omega

theorem inPpuWindow_of_inRam {a : Word} (h : inRam a = true) : inPpuWindow a = false := by
  rw [inRam_iff] at h; rw [inPpuWindow_eq_false_iff]; exact .inl h

@[simp] theorem inPpuWindow_zext16 (b : Byte) : inPpuWindow (zext16 b) = false :=
  inPpuWindow_of_inRam (inRam_zext16 b)

@[simp] theorem inPpuWindow_stackAddr (sp : Byte) : inPpuWindow (stackAddr sp) = false :=
  inPpuWindow_of_inRam (inRam_stackAddr sp)

/-! ### PPU ports -/

/-- A port read changes the PPU alone. -/
theorem ppuRegRead_snd (i : Nat) (ro : Bool) (s : State) :
    (ppuRegRead i ro s).2 = s.setPpu (ppuRegRead i ro s).2.ppu := by
  simp only [ppuRegRead, statusRead, dataRead]
  split
  · split <;> rfl
  · split
    · split <;> rfl
    · rfl

theorem ppuRegRead_fst (i : Nat) (ro : Bool) (s : State) :
    (ppuRegRead i ro s).1 = (ppuRegRead i true s).1 := by
  cases ro
  · simp only [ppuRegRead, statusRead, dataRead]
    split
    · rfl
    · split <;> rfl
  · rfl

/-- A port read does not look at the CPU. -/
theorem ppuRegRead_withCpu (i : Nat) (ro : Bool) (s : State) (c : Cpu) :
    ppuRegRead i ro (s.withCpu c) = ((ppuRegRead i ro s).1, (ppuRegRead i ro s).2.withCpu c) := by
  simp only [ppuRegRead, statusRead, dataRead]
  split
  · split <;> rfl
  · split
    · split <;> rfl
    · rfl

theorem ppuRegRead_true_snd (i : Nat) (s : State) : (ppuRegRead i true s).2 = s := by
  simp only [ppuRegRead, statusRead, dataRead]
  split
  · rfl
  · split <;> rfl

/-- A port write changes the PPU and the cartridge's CHR RAM alone. -/
theorem ppuRegWrite_frame (i : Nat) (d : Byte) (s : State) :
    ppuRegWrite i d s
      = { s with ppu := (ppuRegWrite i d s).ppu, cart := (ppuRegWrite i d s).cart } := by
  simp only [ppuRegWrite, dataWrite, ppuWrite]
  repeat' split
  all_goals rfl

theorem ppuWrite_withCpu (a : Word) (d : Byte) (s : State) (c : Cpu) :
    ppuWrite a d (s.withCpu c) = (ppuWrite a d s).withCpu c := by
  simp only [ppuWrite]
  split
  · rfl
  · split <;> rfl

theorem dataWrite_withCpu (d : Byte) (s : State) (c : Cpu) :
    dataWrite d (s.withCpu c) = (dataWrite d s).withCpu c := by
  have h : dataWrite d (s.withCpu c)
      = (fun u : State => u.setPpu (incV u.ppu)) (ppuWrite (s.ppu.v.setWidth 16) d (s.withCpu c)) := rfl
  rw [h, ppuWrite_withCpu]; rfl

/-- A port write does not look at the CPU. -/
theorem ppuRegWrite_withCpu (i : Nat) (d : Byte) (s : State) (c : Cpu) :
    ppuRegWrite i d (s.withCpu c) = (ppuRegWrite i d s).withCpu c := by
  simp only [ppuRegWrite]
  repeat' split
  all_goals first
    | rfl
    | exact dataWrite_withCpu d (s.setPpu { s.ppu with ppuBus := d }) c

/-! ### Bus reads -/

theorem busRead_true_snd (a : Word) (s : State) : (busRead a true s).2 = s := by
  simp only [busRead]
  split
  · rfl
  · split
    · exact ppuRegRead_true_snd _ s
    · rfl

/-- A read returns what a peek returns. -/
@[simp] theorem memRead_fst (a : Word) (s : State) : (memRead a s).1 = peek s a := by
  simp only [memRead, peek, busRead]
  split
  · rfl
  · split
    · exact ppuRegRead_fst _ _ s
    · rfl

/-- A read changes the PPU alone. -/
theorem memRead_snd (a : Word) (s : State) : (memRead a s).2 = s.setPpu (memRead a s).2.ppu := by
  simp only [memRead, busRead]
  split
  · rfl
  · split
    · exact ppuRegRead_snd _ _ s
    · rfl

/-- Outside the PPU's window a read changes nothing. -/
theorem memRead_snd_of_not_window {a : Word} (h : inPpuWindow a = false) (s : State) :
    (memRead a s).2 = s := by
  simp only [memRead, busRead, h]
  split <;> rfl

@[simp] theorem memRead_cpu (a : Word) (s : State) : (memRead a s).2.cpu = s.cpu := by
  rw [memRead_snd]; rfl
@[simp] theorem memRead_ram (a : Word) (s : State) : (memRead a s).2.ram = s.ram := by
  rw [memRead_snd]; rfl
@[simp] theorem memRead_mem (a : Word) (s : State) : (memRead a s).2.mem = s.mem := by
  rw [memRead_snd]; rfl
@[simp] theorem memRead_cart (a : Word) (s : State) : (memRead a s).2.cart = s.cart := by
  rw [memRead_snd]; rfl
@[simp] theorem memRead_sysClock (a : Word) (s : State) : (memRead a s).2.sysClock = s.sysClock := by
  rw [memRead_snd]; rfl
@[simp] theorem memRead_params (a : Word) (s : State) : (memRead a s).2.params = s.params := by
  rw [memRead_snd]; rfl

/-- A read does not look at the CPU. -/
theorem memRead_withCpu (a : Word) (s : State) (c : Cpu) :
    memRead a (s.withCpu c) = ((memRead a s).1, (memRead a s).2.withCpu c) := by
  simp only [memRead, busRead]
  split
  · rfl
  · split
    · exact ppuRegRead_withCpu _ _ s c
    · rfl

/-- A peek does not look at the CPU. -/
theorem peek_withCpu (a : Word) (s : State) (c : Cpu) : peek (s.withCpu c) a = peek s a := by
  rw [← memRead_fst, ← memRead_fst, memRead_withCpu]

/-- What a peek outside the PPU's window returns. -/
theorem peek_of_not_window {a : Word} (h : inPpuWindow a = false) (s : State) :
    peek s a = if inRam a then s.ram.read (ramIndex a) else s.mem.read a.toNat := by
  simp only [peek, busRead, h]
  split <;> simp_all

/-- Outside the PPU's window a peek looks at RAM and the backing array alone. -/
theorem peek_congr {a : Word} (h : inPpuWindow a = false) {s t : State} (hr : t.ram = s.ram)
    (hm : t.mem = s.mem) : peek t a = peek s a := by
  rw [peek_of_not_window h, peek_of_not_window h, hr, hm]

theorem SameBytes.of_eq {s t : State} (hr : t.ram = s.ram) (hm : t.mem = s.mem) : SameBytes s t :=
  fun _ h => peek_congr h hr hm

/-! ### Bus writes -/

/-- A write changes neither the CPU, the system clock nor the parameters. -/
theorem memWrite_frame (a : Word) (d : Byte) (s : State) :
    memWrite a d s
      = { s with
          ppu := (memWrite a d s).ppu, ram := (memWrite a d s).ram, mem := (memWrite a d s).mem
          cart := (memWrite a d s).cart } := by
  simp only [memWrite, fallbackWrite]
  split
  · rfl
  · split
    · rw [ppuRegWrite_frame]
    · split <;> rfl

@[simp] theorem memWrite_cpu (a : Word) (d : Byte) (s : State) : (memWrite a d s).cpu = s.cpu := by
  rw [memWrite_frame]
@[simp] theorem memWrite_sysClock (a : Word) (d : Byte) (s : State) :
    (memWrite a d s).sysClock = s.sysClock := by rw [memWrite_frame]
@[simp] theorem memWrite_params (a : Word) (d : Byte) (s : State) :
    (memWrite a d s).params = s.params := by rw [memWrite_frame]

/-- A write does not look at the CPU. -/
theorem memWrite_withCpu (a : Word) (d : Byte) (s : State) (c : Cpu) :
    memWrite a d (s.withCpu c) = (memWrite a d s).withCpu c := by
  simp only [memWrite, fallbackWrite]
  split
  · rfl
  · split
    · exact ppuRegWrite_withCpu _ d s c
    · split <;> rfl

/-- RAM after a write: the byte at the RAM index of the address, where the address reaches RAM. -/
theorem memWrite_ram (a : Word) (d : Byte) (s : State) :
    (memWrite a d s).ram
      = if inRam a || (!inPpuWindow a && s.params.fallbackAliasesRam) then
          s.ram.write (ramIndex a) d
        else s.ram := by
  simp only [memWrite, fallbackWrite]
  cases hr : inRam a
  · cases hw : inPpuWindow a
    · cases hf : s.params.fallbackAliasesRam <;> simp [State.setRam, State.setMem]
    · simp only [Bool.false_eq_true, ↓reduceIte, Bool.not_true, Bool.false_and, Bool.or_self]
      rw [ppuRegWrite_frame]
  · simp [State.setRam]

/-- The backing array after a write: the fallback's byte below index 0x0800, or nothing. -/
theorem memWrite_mem (a : Word) (d : Byte) (s : State) :
    (memWrite a d s).mem
      = if !inRam a && !inPpuWindow a && !s.params.fallbackAliasesRam then
          s.mem.write (ramIndex a) d
        else s.mem := by
  simp only [memWrite, fallbackWrite]
  cases hr : inRam a
  · cases hw : inPpuWindow a
    · cases hf : s.params.fallbackAliasesRam <;> simp [State.setRam, State.setMem]
    · simp only [Bool.false_eq_true, ↓reduceIte, Bool.not_true, Bool.not_false, Bool.true_and,
        Bool.false_and]
      rw [ppuRegWrite_frame]
  · simp [State.setRam]

/-- A write at the PPU's window, and no other, changes the PPU or the cartridge. -/
theorem memWrite_ppu_of_not_window {a : Word} (h : inPpuWindow a = false) (d : Byte) (s : State) :
    (memWrite a d s).ppu = s.ppu ∧ (memWrite a d s).cart = s.cart := by
  simp only [memWrite, fallbackWrite, h]
  split
  · exact ⟨rfl, rfl⟩
  · simp only [Bool.false_eq_true, ↓reduceIte]
    split <;> exact ⟨rfl, rfl⟩

theorem ppuWrite_cart (a : Word) (d : Byte) (s : State) :
    (ppuWrite a d s).cart = s.cart ∨
      ∃ k, k < 0x2000 ∧ (ppuWrite a d s).cart = chrWrite s.cart k d := by
  by_cases h : (a &&& 0x3FFF).toNat ≤ 0x1FFF
  · exact .inr ⟨_, Nat.lt_succ_of_le h, by simp only [ppuWrite, if_pos h, State.setCart]⟩
  · left
    simp only [ppuWrite, if_neg h]
    split <;> rfl

theorem ppuRegWrite_cart (i : Nat) (d : Byte) (s : State) :
    (ppuRegWrite i d s).cart = s.cart ∨
      ∃ k, k < 0x2000 ∧ (ppuRegWrite i d s).cart = chrWrite s.cart k d := by
  by_cases h : i = 7
  · subst h
    exact ppuWrite_cart _ d (s.setPpu { s.ppu with ppuBus := d })
  · left
    simp only [ppuRegWrite, if_neg h]
    repeat' split
    all_goals rfl

/-- The cartridge after a write: as it was, or with one byte written in its CHR address space (R98). -/
theorem memWrite_cart (a : Word) (d : Byte) (s : State) :
    (memWrite a d s).cart = s.cart ∨
      ∃ k, k < 0x2000 ∧ (memWrite a d s).cart = chrWrite s.cart k d := by
  by_cases h : inPpuWindow a = true
  · have h1 : inRam a = false := by
      rw [inPpuWindow_iff] at h; simp only [inRam, decide_eq_false_iff_not]; omega
    have h2 : memWrite a d s = ppuRegWrite (regIndex a) d s := by simp [memWrite, h, h1]
    rw [h2]; exact ppuRegWrite_cart _ d s
  · exact .inl (memWrite_ppu_of_not_window (by simpa using h) d s).2

/-- A CHR write keeps the header, PRG ROM and CHR ROM (R98). -/
theorem chrWrite_some (c : Cartridge) (k : Nat) (d : Byte) :
    ∃ c', chrWrite (some c) k d = some c' ∧ c'.prg = c.prg ∧ c'.prgBanks = c.prgBanks ∧
      c'.chrBanks = c.chrBanks ∧ c'.mapper = c.mapper ∧ c'.mirroring = c.mirroring ∧
      c'.chr = (if c.chrBanks = 0 then c.chr.write k d else c.chr) := by
  refine ⟨_, rfl, ?_⟩
  split <;> exact ⟨rfl, rfl, rfl, rfl, rfl, rfl⟩

/-! ### Pointers and the stack -/

/-- Two reads of addresses outside the PPU's window: the little-endian word, and nothing changes. -/
theorem readPointer_of_not_window {l h : Word} (hl : inPpuWindow l = false)
    (hh : inPpuWindow h = false) (s : State) :
    readPointer l h s = (word16 (peek s h) (peek s l), s) := by
  simp only [readPointer, memRead_fst, memRead_snd_of_not_window hl, memRead_snd_of_not_window hh]

theorem readPointer_withCpu (l h : Word) (s : State) (c : Cpu) :
    readPointer l h (s.withCpu c) = ((readPointer l h s).1, (readPointer l h s).2.withCpu c) := by
  simp only [readPointer, memRead_withCpu]

/-- Pointer reads change the PPU alone. -/
theorem readPointer_snd (l h : Word) (s : State) :
    (readPointer l h s).2 = s.setPpu (readPointer l h s).2.ppu := by
  show (memRead h (memRead l s).2).2 = s.setPpu (memRead h (memRead l s).2).2.ppu
  generalize hu : (memRead l s).2 = u
  have h1 := memRead_snd l s
  rw [hu] at h1
  rw [memRead_snd h u, h1]; rfl

/-- `Push(v)`: one RAM byte, and SP. -/
theorem push_eq (v : Byte) (s : State) :
    push v s = (s.setRam (pushed1 s v)).setSp (s.cpu.sp - 1) := by
  simp only [push, memWrite, inRam_stackAddr, if_true, ramIndex_stackAddr, pushed1]
  rfl

/-- `Pop()`: the byte above SP, and SP. -/
theorem pop_eq (s : State) : pop s = (stackByte s 1, s.setSp (s.cpu.sp + 1)) := by
  simp only [pop, memRead, busRead, inRam_stackAddr, if_true, ramIndex_stackAddr, stackByte]
  rfl

theorem pushWord_eq (w : Word) (s : State) :
    pushWord w s = (s.setRam (pushed2 s (hiByte w) (loByte w))).setSp (s.cpu.sp - 2) := by
  simp only [pushWord, push_eq, pushed1, pushed2, State.setSp_sp, State.setRam]
  simp only [State.setSp, BitVec.sub_sub]
  rfl

theorem popWord_eq (s : State) :
    popWord s = (word16 (stackByte s 2) (stackByte s 1), s.setSp (s.cpu.sp + 2)) := by
  simp only [popWord, pop_eq, stackByte, State.setSp, BitVec.add_assoc]
  rfl

theorem memRead16_high (s : State) (a : Word) (h : 0x4000 ≤ a.toNat) (h' : a ≠ 0xFFFF) :
    memRead16 a s = (peek16 s a, s) := by
  have hlt : a.toNat < 65535 := by
    rcases Nat.lt_or_ge a.toNat 65535 with h1 | h1
    · exact h1
    · exact absurd (BitVec.eq_of_toNat_eq (by simp; have := a.isLt; omega)) h'
  have h1 : inPpuWindow a = false := by rw [inPpuWindow_eq_false_iff]; exact .inr h
  have h2 : inPpuWindow (a + 1) = false := by
    rw [inPpuWindow_eq_false_iff, BitVec.toNat_add]
    right; simp; omega
  exact readPointer_of_not_window h1 h2 s

/-! ### Ports without a read effect, and the PPU's addresses -/

/-- A port other than 2 and 7 reads 0 and changes nothing (60_exceptions.md R330). -/
theorem memRead_of_quiet_port {a : Word} (h : inPpuWindow a = true) (h2 : a.toNat % 8 ≠ 2)
    (h7 : a.toNat % 8 ≠ 7) (s : State) : memRead a s = (0x00, s) := by
  have hr : inRam a = false := by
    cases hh : inRam a
    · rfl
    · rw [inPpuWindow_of_inRam hh] at h
      cases h
  simp only [memRead, busRead, hr, h, ppuRegRead, regIndex_eq, if_neg h2, if_neg h7]
  rfl

/-- The 14-bit reduction (20_memory.md R100). -/
theorem toNat_and_ppuMask (a : Word) : (a &&& 0x3FFF : Word).toNat = a.toNat % 0x4000 := by
  rw [BitVec.toNat_and]
  exact Nat.and_two_pow_sub_one_eq_mod _ 14

/-- The physical name table by quadrant (R102). -/
theorem ntSelect_eq (c : Option Cartridge) (a : Nat) :
    ntSelect c a
      = if verticalMirroring c then (a % 0x1000) / 0x400 % 2 else (a % 0x1000) / 0x800 := by
  simp only [ntSelect]
  rw [show a &&& 0x0FFF = a % 0x1000 from Nat.and_two_pow_sub_one_eq_mod a 12]
  split
  · rw [Nat.shiftRight_eq_div_pow, Nat.and_one_is_mod]
  · rw [Nat.shiftRight_eq_div_pow, Nat.shiftRight_eq_div_pow]
    omega

/-- The palette fold (R103). -/
theorem palIndex_eq (a : Nat) :
    palIndex a = if a % 0x20 ≥ 0x10 ∧ a % 4 = 0 then a % 0x20 - 0x10 else a % 0x20 := by
  simp only [palIndex]
  rw [show a &&& 0x1F = a % 0x20 from Nat.and_two_pow_sub_one_eq_mod a 5]
  split <;> split <;> omega

/-- A VRAM address as a number, from its fields (10_state.md R51). -/
theorem toNat_vramAddr (fy : BitVec 3) (ny nx : Bool) (cy cx : BitVec 5) :
    (vramAddr fy ny nx cy cx).toNat
      = fy.toNat * 4096 + ny.toNat * 2048 + nx.toNat * 1024 + cy.toNat * 32 + cx.toNat := by
  have h2 := cy.isLt
  have h3 := cx.isLt
  have hn : ny.toNat < 2 := by cases ny <;> decide
  have hx : nx.toNat < 2 := by cases nx <;> decide
  simp only [vramAddr, BitVec.toNat_append, BitVec.toNat_ofBool]
  rw [← Nat.shiftLeft_add_eq_or_of_lt h3, ← Nat.shiftLeft_add_eq_or_of_lt h2,
    ← Nat.shiftLeft_add_eq_or_of_lt (i := 1) (by simpa using hx),
    ← Nat.shiftLeft_add_eq_or_of_lt (i := 1) (by simpa using hn)]
  simp only [Nat.shiftLeft_eq]
  omega

end Sys2Proof.Machine
end

