-- ==== Sys2Proof/Laws/Flags.lean ====
section
/-!
SUPPORT. The status byte as its eight flags: reading and writing one, and every flag computation of the spec
as the flags it leaves.
-/

namespace Sys2Proof.Machine

open Sys2Proof

@[simp] theorem flag_packP_0 (n v u b d i z c : Bool) : flag (packP n v u b d i z c) 0 = c := by
  revert n v u b d i z c; decide
@[simp] theorem flag_packP_1 (n v u b d i z c : Bool) : flag (packP n v u b d i z c) 1 = z := by
  revert n v u b d i z c; decide
@[simp] theorem flag_packP_2 (n v u b d i z c : Bool) : flag (packP n v u b d i z c) 2 = i := by
  revert n v u b d i z c; decide
@[simp] theorem flag_packP_3 (n v u b d i z c : Bool) : flag (packP n v u b d i z c) 3 = d := by
  revert n v u b d i z c; decide
@[simp] theorem flag_packP_4 (n v u b d i z c : Bool) : flag (packP n v u b d i z c) 4 = b := by
  revert n v u b d i z c; decide
@[simp] theorem flag_packP_5 (n v u b d i z c : Bool) : flag (packP n v u b d i z c) 5 = u := by
  revert n v u b d i z c; decide
@[simp] theorem flag_packP_6 (n v u b d i z c : Bool) : flag (packP n v u b d i z c) 6 = v := by
  revert n v u b d i z c; decide
@[simp] theorem flag_packP_7 (n v u b d i z c : Bool) : flag (packP n v u b d i z c) 7 = n := by
  revert n v u b d i z c; decide

/-- A status byte is its eight flags. -/
theorem packP_flags (p : Byte) :
    packP (flag p bitN) (flag p bitV) (flag p bitU) (flag p bitB) (flag p bitD) (flag p bitI)
      (flag p bitZ) (flag p bitC) = p := by
  apply status_ext
  intro k hk
  interval_cases k <;> simp

@[simp] theorem putBit_packP_0 (n v u b d i z c on : Bool) :
    putBit (packP n v u b d i z c) 0 on = packP n v u b d i z on := by
  revert n v u b d i z c on; decide
@[simp] theorem putBit_packP_1 (n v u b d i z c on : Bool) :
    putBit (packP n v u b d i z c) 1 on = packP n v u b d i on c := by
  revert n v u b d i z c on; decide
@[simp] theorem putBit_packP_2 (n v u b d i z c on : Bool) :
    putBit (packP n v u b d i z c) 2 on = packP n v u b d on z c := by
  revert n v u b d i z c on; decide
@[simp] theorem putBit_packP_3 (n v u b d i z c on : Bool) :
    putBit (packP n v u b d i z c) 3 on = packP n v u b on i z c := by
  revert n v u b d i z c on; decide
@[simp] theorem putBit_packP_4 (n v u b d i z c on : Bool) :
    putBit (packP n v u b d i z c) 4 on = packP n v u on d i z c := by
  revert n v u b d i z c on; decide
@[simp] theorem putBit_packP_5 (n v u b d i z c on : Bool) :
    putBit (packP n v u b d i z c) 5 on = packP n v on b d i z c := by
  revert n v u b d i z c on; decide
@[simp] theorem putBit_packP_6 (n v u b d i z c on : Bool) :
    putBit (packP n v u b d i z c) 6 on = packP n on u b d i z c := by
  revert n v u b d i z c on; decide
@[simp] theorem putBit_packP_7 (n v u b d i z c on : Bool) :
    putBit (packP n v u b d i z c) 7 on = packP on v u b d i z c := by
  revert n v u b d i z c on; decide

/-- Every status byte is some eight flags: the case split of the flag laws. -/
theorem exists_packP (p : Byte) : ∃ n v u b d i z c, p = packP n v u b d i z c :=
  ⟨_, _, _, _, _, _, _, _, (packP_flags p).symm⟩

@[simp] theorem packP_inj (n v u b d i z c n' v' u' b' d' i' z' c' : Bool) :
    packP n v u b d i z c = packP n' v' u' b' d' i' z' c' ↔
      n = n' ∧ v = v' ∧ u = u' ∧ b = b' ∧ d = d' ∧ i = i' ∧ z = z' ∧ c = c' := by
  constructor
  · intro h
    refine ⟨?_, ?_, ?_, ?_, ?_, ?_, ?_, ?_⟩
    · simpa using congrArg (flag · 7) h
    · simpa using congrArg (flag · 6) h
    · simpa using congrArg (flag · 5) h
    · simpa using congrArg (flag · 4) h
    · simpa using congrArg (flag · 3) h
    · simpa using congrArg (flag · 2) h
    · simpa using congrArg (flag · 1) h
    · simpa using congrArg (flag · 0) h
  · rintro ⟨rfl, rfl, rfl, rfl, rfl, rfl, rfl, rfl⟩; rfl

/-- SetZN between the two forcings of U (R143, R162). -/
theorem forced_setZN (p r : Byte) :
    putBit (setZN (putBit p bitU true) r) bitU true = statusZN p r := by
  obtain ⟨n, v, u, b, d, i, z, c, rfl⟩ := exists_packP p
  simp [setZN, statusZN]

/-- The two forcings of U around an operation that writes no flag (R143). -/
theorem forced_status (p : Byte) : putBit (putBit p bitU true) bitU true = statusU p := by
  obtain ⟨n, v, u, b, d, i, z, c, rfl⟩ := exists_packP p
  simp [statusU]

/-- C, then SetZN, between the two forcings of U. -/
theorem forced_setC_setZN (p r : Byte) (on : Bool) :
    putBit (setZN (putBit (putBit p bitU true) bitC on) r) bitU true = statusCZN p on r := by
  obtain ⟨n, v, u, b, d, i, z, c, rfl⟩ := exists_packP p
  simp [setZN, statusCZN]

/-- The compares (R196 to R198). -/
theorem forced_compareStatus (p r m : Byte) :
    putBit (compareStatus (putBit p bitU true) r m) bitU true
      = statusCZN p (decide (r.toNat ≥ m.toNat)) (r - m) := forced_setC_setZN p (r - m) _

/-- BIT (R195). -/
theorem forced_bitStatus (p a m : Byte) :
    putBit (bitStatus (putBit p bitU true) a m) bitU true
      = packP (m.getLsbD 7) (m.getLsbD 6) true (flag p bitB) (flag p bitD) (flag p bitI)
          (a &&& m == 0) (flag p bitC) := by
  obtain ⟨n, v, u, b, d, i, z, c, rfl⟩ := exists_packP p
  simp [bitStatus]

@[simp] theorem flag_statusU (p : Byte) (k : Nat) :
    flag (statusU p) k = if k = bitU then true else flag p k := by
  by_cases hk : k < 8
  · interval_cases k <;> simp [statusU]
  · have h : ∀ q : Byte, flag q k = false := fun q => BitVec.getLsbD_of_ge q k (by omega)
    rw [h, h, if_neg (by show ¬k = 5; omega)]

end Sys2Proof.Machine
end

