-- ==== Sys2Proof/Laws/PerInstr.lean ====
section
/-!
SUPPORT. Statements about each instruction as syntax: its opcode byte in the Encoding lines of R180 to R278
stands for it in the table of R127.
-/

namespace Sys2Proof.Laws.TableEntry

open Sys2Proof

/-- A well-formed instruction has an opcode byte, and the table's entry for that byte is its operation and
its mode. -/
def Statement (i : Instr) : Prop :=
  i.WellFormed → ∃ op, opcodeOf i = some op ∧ (table op).op = i.op ∧ (table op).mode = i.mode

/-- An opcode byte of the INVALID set has an INVALID entry with mode IMP. -/
theorem invalid_byte : ∀ b : Byte, isInvalidOpcode b = true →
    (table b).op = .invalid ∧ (table b).mode = .imp := by decide

theorem lda (o : Operand) : Statement (.lda o) := by
  intro h
  cases o <;> first
    | exact ⟨_, rfl, rfl, rfl⟩
    | exact absurd (show false = true from h) Bool.false_ne_true
theorem ldx (o : Operand) : Statement (.ldx o) := by
  intro h
  cases o <;> first
    | exact ⟨_, rfl, rfl, rfl⟩
    | exact absurd (show false = true from h) Bool.false_ne_true
theorem ldy (o : Operand) : Statement (.ldy o) := by
  intro h
  cases o <;> first
    | exact ⟨_, rfl, rfl, rfl⟩
    | exact absurd (show false = true from h) Bool.false_ne_true
theorem sta (o : Operand) : Statement (.sta o) := by
  intro h
  cases o <;> first
    | exact ⟨_, rfl, rfl, rfl⟩
    | exact absurd (show false = true from h) Bool.false_ne_true
theorem stx (o : Operand) : Statement (.stx o) := by
  intro h
  cases o <;> first
    | exact ⟨_, rfl, rfl, rfl⟩
    | exact absurd (show false = true from h) Bool.false_ne_true
theorem sty (o : Operand) : Statement (.sty o) := by
  intro h
  cases o <;> first
    | exact ⟨_, rfl, rfl, rfl⟩
    | exact absurd (show false = true from h) Bool.false_ne_true
theorem adc (o : Operand) : Statement (.adc o) := by
  intro h
  cases o <;> first
    | exact ⟨_, rfl, rfl, rfl⟩
    | exact absurd (show false = true from h) Bool.false_ne_true
theorem sbc (o : Operand) : Statement (.sbc o) := by
  intro h
  cases o <;> first
    | exact ⟨_, rfl, rfl, rfl⟩
    | exact absurd (show false = true from h) Bool.false_ne_true
theorem and (o : Operand) : Statement (.and o) := by
  intro h
  cases o <;> first
    | exact ⟨_, rfl, rfl, rfl⟩
    | exact absurd (show false = true from h) Bool.false_ne_true
theorem eor (o : Operand) : Statement (.eor o) := by
  intro h
  cases o <;> first
    | exact ⟨_, rfl, rfl, rfl⟩
    | exact absurd (show false = true from h) Bool.false_ne_true
theorem ora (o : Operand) : Statement (.ora o) := by
  intro h
  cases o <;> first
    | exact ⟨_, rfl, rfl, rfl⟩
    | exact absurd (show false = true from h) Bool.false_ne_true
theorem bit (o : Operand) : Statement (.bit o) := by
  intro h
  cases o <;> first
    | exact ⟨_, rfl, rfl, rfl⟩
    | exact absurd (show false = true from h) Bool.false_ne_true
theorem cmp (o : Operand) : Statement (.cmp o) := by
  intro h
  cases o <;> first
    | exact ⟨_, rfl, rfl, rfl⟩
    | exact absurd (show false = true from h) Bool.false_ne_true
theorem cpx (o : Operand) : Statement (.cpx o) := by
  intro h
  cases o <;> first
    | exact ⟨_, rfl, rfl, rfl⟩
    | exact absurd (show false = true from h) Bool.false_ne_true
theorem cpy (o : Operand) : Statement (.cpy o) := by
  intro h
  cases o <;> first
    | exact ⟨_, rfl, rfl, rfl⟩
    | exact absurd (show false = true from h) Bool.false_ne_true
theorem inc (o : Operand) : Statement (.inc o) := by
  intro h
  cases o <;> first
    | exact ⟨_, rfl, rfl, rfl⟩
    | exact absurd (show false = true from h) Bool.false_ne_true
theorem dec (o : Operand) : Statement (.dec o) := by
  intro h
  cases o <;> first
    | exact ⟨_, rfl, rfl, rfl⟩
    | exact absurd (show false = true from h) Bool.false_ne_true
theorem inx : Statement .inx := fun _ => ⟨_, rfl, rfl, rfl⟩
theorem iny : Statement .iny := fun _ => ⟨_, rfl, rfl, rfl⟩
theorem dex : Statement .dex := fun _ => ⟨_, rfl, rfl, rfl⟩
theorem dey : Statement .dey := fun _ => ⟨_, rfl, rfl, rfl⟩
theorem asl (o : Operand) : Statement (.asl o) := by
  intro h
  cases o <;> first
    | exact ⟨_, rfl, rfl, rfl⟩
    | exact absurd (show false = true from h) Bool.false_ne_true
theorem lsr (o : Operand) : Statement (.lsr o) := by
  intro h
  cases o <;> first
    | exact ⟨_, rfl, rfl, rfl⟩
    | exact absurd (show false = true from h) Bool.false_ne_true
theorem rol (o : Operand) : Statement (.rol o) := by
  intro h
  cases o <;> first
    | exact ⟨_, rfl, rfl, rfl⟩
    | exact absurd (show false = true from h) Bool.false_ne_true
theorem ror (o : Operand) : Statement (.ror o) := by
  intro h
  cases o <;> first
    | exact ⟨_, rfl, rfl, rfl⟩
    | exact absurd (show false = true from h) Bool.false_ne_true
theorem bcc (rel : Byte) : Statement (.bcc rel) := fun _ => ⟨_, rfl, rfl, rfl⟩
theorem bcs (rel : Byte) : Statement (.bcs rel) := fun _ => ⟨_, rfl, rfl, rfl⟩
theorem beq (rel : Byte) : Statement (.beq rel) := fun _ => ⟨_, rfl, rfl, rfl⟩
theorem bne (rel : Byte) : Statement (.bne rel) := fun _ => ⟨_, rfl, rfl, rfl⟩
theorem bmi (rel : Byte) : Statement (.bmi rel) := fun _ => ⟨_, rfl, rfl, rfl⟩
theorem bpl (rel : Byte) : Statement (.bpl rel) := fun _ => ⟨_, rfl, rfl, rfl⟩
theorem bvc (rel : Byte) : Statement (.bvc rel) := fun _ => ⟨_, rfl, rfl, rfl⟩
theorem bvs (rel : Byte) : Statement (.bvs rel) := fun _ => ⟨_, rfl, rfl, rfl⟩
theorem jmp (o : Operand) : Statement (.jmp o) := by
  intro h
  cases o <;> first
    | exact ⟨_, rfl, rfl, rfl⟩
    | exact absurd (show false = true from h) Bool.false_ne_true
theorem jsr (addr : Word) : Statement (.jsr addr) := fun _ => ⟨_, rfl, rfl, rfl⟩
theorem rts : Statement .rts := fun _ => ⟨_, rfl, rfl, rfl⟩
theorem brk : Statement .brk := fun _ => ⟨_, rfl, rfl, rfl⟩
theorem rti : Statement .rti := fun _ => ⟨_, rfl, rfl, rfl⟩
theorem pha : Statement .pha := fun _ => ⟨_, rfl, rfl, rfl⟩
theorem php : Statement .php := fun _ => ⟨_, rfl, rfl, rfl⟩
theorem pla : Statement .pla := fun _ => ⟨_, rfl, rfl, rfl⟩
theorem plp : Statement .plp := fun _ => ⟨_, rfl, rfl, rfl⟩
theorem clc : Statement .clc := fun _ => ⟨_, rfl, rfl, rfl⟩
theorem cld : Statement .cld := fun _ => ⟨_, rfl, rfl, rfl⟩
theorem cli : Statement .cli := fun _ => ⟨_, rfl, rfl, rfl⟩
theorem clv : Statement .clv := fun _ => ⟨_, rfl, rfl, rfl⟩
theorem sec : Statement .sec := fun _ => ⟨_, rfl, rfl, rfl⟩
theorem sed : Statement .sed := fun _ => ⟨_, rfl, rfl, rfl⟩
theorem sei : Statement .sei := fun _ => ⟨_, rfl, rfl, rfl⟩
theorem tax : Statement .tax := fun _ => ⟨_, rfl, rfl, rfl⟩
theorem tay : Statement .tay := fun _ => ⟨_, rfl, rfl, rfl⟩
theorem tsx : Statement .tsx := fun _ => ⟨_, rfl, rfl, rfl⟩
theorem txa : Statement .txa := fun _ => ⟨_, rfl, rfl, rfl⟩
theorem txs : Statement .txs := fun _ => ⟨_, rfl, rfl, rfl⟩
theorem tya : Statement .tya := fun _ => ⟨_, rfl, rfl, rfl⟩
theorem nop : Statement .nop := fun _ => ⟨_, rfl, rfl, rfl⟩
theorem invalid (op : Byte) : Statement (.invalid op) := by
  intro h
  have hb : isInvalidOpcode op = true := h
  exact ⟨op, if_pos hb, (invalid_byte op hb).1, (invalid_byte op hb).2⟩

/-- Every instruction has its table entry. -/
theorem everyInstruction (i : Instr) : Statement i := by
  cases i with
  | lda o => exact lda o
  | ldx o => exact ldx o
  | ldy o => exact ldy o
  | sta o => exact sta o
  | stx o => exact stx o
  | sty o => exact sty o
  | adc o => exact adc o
  | sbc o => exact sbc o
  | and o => exact and o
  | eor o => exact eor o
  | ora o => exact ora o
  | bit o => exact bit o
  | cmp o => exact cmp o
  | cpx o => exact cpx o
  | cpy o => exact cpy o
  | inc o => exact inc o
  | dec o => exact dec o
  | inx => exact inx
  | iny => exact iny
  | dex => exact dex
  | dey => exact dey
  | asl o => exact asl o
  | lsr o => exact lsr o
  | rol o => exact rol o
  | ror o => exact ror o
  | bcc rel => exact bcc rel
  | bcs rel => exact bcs rel
  | beq rel => exact beq rel
  | bne rel => exact bne rel
  | bmi rel => exact bmi rel
  | bpl rel => exact bpl rel
  | bvc rel => exact bvc rel
  | bvs rel => exact bvs rel
  | jmp o => exact jmp o
  | jsr addr => exact jsr addr
  | rts => exact rts
  | brk => exact brk
  | rti => exact rti
  | pha => exact pha
  | php => exact php
  | pla => exact pla
  | plp => exact plp
  | clc => exact clc
  | cld => exact cld
  | cli => exact cli
  | clv => exact clv
  | sec => exact sec
  | sed => exact sed
  | sei => exact sei
  | tax => exact tax
  | tay => exact tay
  | tsx => exact tsx
  | txa => exact txa
  | txs => exact txs
  | tya => exact tya
  | nop => exact nop
  | invalid op => exact invalid op

end Sys2Proof.Laws.TableEntry
end

