-- ==== Sys2Proof/Laws/Operands.lean ====
section
/-!
SUPPORT. Laws of the addressing modes, of fetch() and of the frame around an operation: what an instruction's
state is when its operation begins, and what the frame adds when it ends.
-/

namespace Sys2Proof.Machine

open Sys2Proof

/-! ### The frame -/

/-- The CPU when the mode routine starts (40_pipeline_addressing.md R140). -/
def begunCpu (op : Byte) (s : State) : Cpu :=
  { s.cpu with
    opcode := op, pc := s.cpu.pc + 1, p := putBit s.cpu.p bitU true, cycles := baseCycles s.params op }

theorem beginInstr_eq (op : Byte) (s : State) : beginInstr op s = s.withCpu (begunCpu op s) := rfl

/-- The CPU after the end of the frame (R140, R143). -/
def endedCpu (extra : Bool) (c : Cpu) : Cpu :=
  { c with cycles := c.cycles + extra.toNat, p := putBit c.p bitU true }

theorem endInstr_eq (extra : Bool) (s : State) :
    endInstr extra s = s.withCpu (endedCpu extra s.cpu) := rfl

/-! ### The base count -/

/-- The counts R127 prints in its `inv` cells are those of the decoder's table. -/
theorem invalidDefaults_eq (op : Byte) (h : isInvalidOpcode op = true) :
    ((invalidDefaults.find? fun e => e.2.contains op).map Prod.fst).getD 0 = (table op).base
      ∧ (table op).op = .invalid := by
  revert op; decide

/-- The base count the Encoding lines print is the one an instruction is charged (R142, R127). -/
theorem baseOf_eq {i : Instr} {op : Byte} (h : i.WellFormed) (e : opcodeOf i = some op) (s : State) :
    baseOf i s = baseCycles s.params op := by
  cases i with
  | invalid b =>
    have hb : isInvalidOpcode b = true := h
    obtain rfl : b = op := Option.some.inj ((if_pos hb).symm.trans e)
    obtain ⟨h1, h2⟩ := invalidDefaults_eq b hb
    simp only [baseOf, baseCycles, h1, if_pos h2]
  | lda o | ldx o | ldy o | sta o | stx o | sty o | adc o | sbc o | and o | eor o | ora o | bit o | cmp o
  | cpx o | cpy o | inc o | dec o | asl o | lsr o | rol o | ror o | jmp o =>
    cases o <;> first
      | exact absurd (show false = true from h) Bool.false_ne_true
      | (obtain rfl := Option.some.inj e; rfl)
  | _ => obtain rfl := Option.some.inj e; rfl

/-! ### Effective addresses -/

/-- Only IND's pointer reads can change anything. -/
theorem effective_state {o : Operand} (h : o.mode ≠ .ind) (s : State) : (effective o s).state = s := by
  cases o <;> first
    | rfl
    | exact absurd rfl h
    | simp only [effective, readPointer_of_not_window (inPpuWindow_zext16 _) (inPpuWindow_zext16 _)]

theorem effective_state_cpu (o : Operand) (s : State) : (effective o s).state.cpu = s.cpu := by
  cases o <;> first
    | rfl
    | (simp only [effective]; rw [readPointer_snd]; rfl)

/-- Address resolution looks at X, Y, and where the mode has no operand address, PC or `addr_abs`. -/
theorem effective_withCpu (o : Operand) (s : State) (c : Cpu) (hx : c.x = s.cpu.x) (hy : c.y = s.cpu.y) :
    (effective o (s.withCpu c)).state = (effective o s).state.withCpu c ∧
    (effective o (s.withCpu c)).extra = (effective o s).extra ∧
    (effective o (s.withCpu c)).addr =
      (match o with
      | .imp => c.addrAbs | .rel _ => c.addrAbs | .imm _ => c.pc
      | _ => (effective o s).addr) := by
  cases o <;> simp [effective, readPointer_withCpu, hx, hy]

/-- `pageCrossed` compares pages. -/
theorem pageCrossed_eq (b t : Word) : pageCrossed b t = otherPage b t := by
  have h : ∀ w : Word, (w &&& 0xFF00).toNat = w.toNat / 256 * 256 := by
    intro w
    have h1 : w &&& (0xFF00 : Word) = (w >>> 8) <<< 8 := by
      apply BitVec.eq_of_getLsbD_eq
      intro i hi
      interval_cases i <;> simp
    rw [h1]
    simp only [BitVec.toNat_shiftLeft, BitVec.toNat_ushiftRight, Nat.shiftRight_eq_div_pow,
      Nat.shiftLeft_eq]
    have := w.isLt
    omega
  simp only [pageCrossed, otherPage]
  rw [Bool.eq_iff_iff]
  simp only [bne_iff_ne, ne_eq, decide_eq_true_eq, ← BitVec.toNat_inj, h]
  omega

/-- mode_extra (R142). -/
theorem modeExtra_eq (o : Operand) (s : State) : modeExtra o s = crossesPage o s := by
  cases o <;> first
    | rfl
    | (simp only [modeExtra, effective, crossesPage, pageCrossed_eq]; done)
    | (simp only [modeExtra, effective, crossesPage, pageCrossed_eq, zeroPagePointer,
        readPointer_of_not_window (inPpuWindow_zext16 _) (inPpuWindow_zext16 _)])

theorem crossesPage_withCpu (o : Operand) (s : State) (c : Cpu) (hx : c.x = s.cpu.x)
    (hy : c.y = s.cpu.y) : crossesPage o (s.withCpu c) = crossesPage o s := by
  cases o <;> simp [crossesPage, zeroPagePointer, peek_withCpu, hx, hy]

/-! ### The mode routine -/

/-- What the mode routine leaves in `addr_abs` at the PC after the opcode byte (R149). -/
def latchedAddr (o : Operand) (s : State) : Word :=
  match o with
  | .imp => s.cpu.addrAbs
  | .rel _ => s.cpu.addrAbs
  | .imm _ => s.cpu.pc + 1
  | .zp0 _ | .zpx _ | .zpy _ | .abs _ | .abx _ | .aby _ | .ind _ | .izx _ | .izy _ => effAddr o s

/-- What the mode routine leaves in `addr_rel` (R149). -/
def latchedRel (o : Operand) (s : State) : Word :=
  match o with
  | .rel b => sext16 b
  | .imp | .imm _ | .zp0 _ | .zpx _ | .zpy _ | .abs _ | .abx _ | .aby _ | .ind _ | .izx _
  | .izy _ => s.cpu.addrRel

/-- What the mode routine leaves in `fetched` (R149). -/
def latchedFetched (o : Operand) (s : State) : Byte :=
  match o with
  | .imp => s.cpu.a
  | .rel _ | .imm _ | .zp0 _ | .zpx _ | .zpy _ | .abs _ | .abx _ | .aby _ | .ind _ | .izx _
  | .izy _ => s.cpu.fetched

/-- The CPU when the operation of an instruction with opcode byte `op` and operand `o` begins. -/
def resolvedCpu (op : Byte) (o : Operand) (s : State) : Cpu :=
  { s.cpu with
    opcode := op
    pc := s.cpu.pc + 1 + BitVec.ofNat 16 (operandLength o.mode)
    p := putBit s.cpu.p bitU true
    cycles := baseCycles s.params op
    addrAbs := latchedAddr o s
    addrRel := latchedRel o s
    fetched := latchedFetched o s }

/-- The state when the operation begins, every mode (R140, R149 to R161). -/
theorem addrMode_beginInstr (op : Byte) (o : Operand) (s : State) :
    addrMode o (beginInstr op s) = (effective o s).state.withCpu (resolvedCpu op o s) := by
  rw [beginInstr_eq]
  obtain ⟨h1, -, h3⟩ := effective_withCpu o s (begunCpu op s) rfl rfl
  simp only [addrMode, h1, h3]
  cases o <;> rfl

/-- The state when the operation begins, every mode but IND. -/
theorem addrMode_beginInstr' (op : Byte) {o : Operand} (s : State) (h : o.mode ≠ .ind) :
    addrMode o (beginInstr op s) = s.withCpu (resolvedCpu op o s) := by
  rw [addrMode_beginInstr, effective_state h]

/-- The state after fetch() at the start of an operation (R141): the operand byte in `fetched`, and what the
one read did to a PPU port. -/
theorem fetchOperand_addrMode (op : Byte) {o : Operand} (s : State) (h : o.mode ≠ .ind)
    (h' : o.mode ≠ .rel) :
    fetchOperand o (addrMode o (beginInstr op s))
      = (afterOperandRead o s).withCpu { resolvedCpu op o s with fetched := operandByte o s } := by
  rw [addrMode_beginInstr' op s h]
  cases o <;> first
    | rfl
    | exact absurd rfl h
    | exact absurd rfl h'
    | (simp only [fetchOperand, memRead_withCpu, memRead_fst, operandByte, afterOperandRead]; rfl)

/-- An operand read changes the PPU alone. -/
theorem afterOperandRead_eq (o : Operand) (s : State) :
    afterOperandRead o s = s.setPpu (afterOperandRead o s).ppu := by
  cases o <;> first
    | rfl
    | (simp only [afterOperandRead]; rw [memRead_snd]; rfl)

@[simp] theorem afterOperandRead_ram (o : Operand) (s : State) : (afterOperandRead o s).ram = s.ram := by
  rw [afterOperandRead_eq]; rfl
@[simp] theorem afterOperandRead_mem (o : Operand) (s : State) : (afterOperandRead o s).mem = s.mem := by
  rw [afterOperandRead_eq]; rfl
@[simp] theorem afterOperandRead_cart (o : Operand) (s : State) :
    (afterOperandRead o s).cart = s.cart := by rw [afterOperandRead_eq]; rfl
@[simp] theorem afterOperandRead_params (o : Operand) (s : State) :
    (afterOperandRead o s).params = s.params := by rw [afterOperandRead_eq]; rfl
@[simp] theorem afterOperandRead_sysClock (o : Operand) (s : State) :
    (afterOperandRead o s).sysClock = s.sysClock := by rw [afterOperandRead_eq]; rfl
@[simp] theorem afterOperandRead_cpu (o : Operand) (s : State) : (afterOperandRead o s).cpu = s.cpu := by
  rw [afterOperandRead_eq]; rfl

/-! ### fetch() and write-back, field by field -/

/-- fetch() changes `fetched`, and the PPU where the read is of one of its ports (R141). -/
theorem fetchOperand_eq (o : Operand) (s : State) :
    fetchOperand o s
      = (s.setPpu (fetchOperand o s).ppu).withCpu { s.cpu with fetched := (fetchOperand o s).cpu.fetched } := by
  cases o <;> first
    | rfl
    | (simp only [fetchOperand]
       conv_lhs => rw [memRead_snd]
       rfl)

@[simp] theorem fetchOperand_a (o : Operand) (s : State) :
    (fetchOperand o s).cpu.a = s.cpu.a := by rw [fetchOperand_eq]
@[simp] theorem fetchOperand_x (o : Operand) (s : State) :
    (fetchOperand o s).cpu.x = s.cpu.x := by rw [fetchOperand_eq]
@[simp] theorem fetchOperand_y (o : Operand) (s : State) :
    (fetchOperand o s).cpu.y = s.cpu.y := by rw [fetchOperand_eq]
@[simp] theorem fetchOperand_sp (o : Operand) (s : State) :
    (fetchOperand o s).cpu.sp = s.cpu.sp := by rw [fetchOperand_eq]
@[simp] theorem fetchOperand_p (o : Operand) (s : State) :
    (fetchOperand o s).cpu.p = s.cpu.p := by rw [fetchOperand_eq]
@[simp] theorem fetchOperand_pc (o : Operand) (s : State) :
    (fetchOperand o s).cpu.pc = s.cpu.pc := by rw [fetchOperand_eq]
@[simp] theorem fetchOperand_addrAbs (o : Operand) (s : State) :
    (fetchOperand o s).cpu.addrAbs = s.cpu.addrAbs := by rw [fetchOperand_eq]
@[simp] theorem fetchOperand_addrRel (o : Operand) (s : State) :
    (fetchOperand o s).cpu.addrRel = s.cpu.addrRel := by rw [fetchOperand_eq]
@[simp] theorem fetchOperand_opcode (o : Operand) (s : State) :
    (fetchOperand o s).cpu.opcode = s.cpu.opcode := by rw [fetchOperand_eq]
@[simp] theorem fetchOperand_cycles (o : Operand) (s : State) :
    (fetchOperand o s).cpu.cycles = s.cpu.cycles := by rw [fetchOperand_eq]
@[simp] theorem fetchOperand_ram (o : Operand) (s : State) :
    (fetchOperand o s).ram = s.ram := by rw [fetchOperand_eq]; rfl
@[simp] theorem fetchOperand_mem (o : Operand) (s : State) :
    (fetchOperand o s).mem = s.mem := by rw [fetchOperand_eq]; rfl
@[simp] theorem fetchOperand_cart (o : Operand) (s : State) :
    (fetchOperand o s).cart = s.cart := by rw [fetchOperand_eq]; rfl
@[simp] theorem fetchOperand_sysClock (o : Operand) (s : State) :
    (fetchOperand o s).sysClock = s.sysClock := by rw [fetchOperand_eq]; rfl
@[simp] theorem fetchOperand_params (o : Operand) (s : State) :
    (fetchOperand o s).params = s.params := by rw [fetchOperand_eq]; rfl

/-- The memory forms write to `addr_abs`, the IMP form to A (43_shift_rotate.md). -/
theorem writeBack_of_ne_imp {o : Operand} (h : o ≠ .imp) (r : Byte) (s : State) :
    writeBack o r s = memWrite s.cpu.addrAbs r s := by
  cases o <;> first | exact absurd rfl h | rfl

@[simp] theorem writeBack_x (o : Operand) (r : Byte) (s : State) :
    (writeBack o r s).cpu.x = s.cpu.x := by cases o <;> simp [writeBack]
@[simp] theorem writeBack_y (o : Operand) (r : Byte) (s : State) :
    (writeBack o r s).cpu.y = s.cpu.y := by cases o <;> simp [writeBack]
@[simp] theorem writeBack_sp (o : Operand) (r : Byte) (s : State) :
    (writeBack o r s).cpu.sp = s.cpu.sp := by cases o <;> simp [writeBack]
@[simp] theorem writeBack_p (o : Operand) (r : Byte) (s : State) :
    (writeBack o r s).cpu.p = s.cpu.p := by cases o <;> simp [writeBack]
@[simp] theorem writeBack_pc (o : Operand) (r : Byte) (s : State) :
    (writeBack o r s).cpu.pc = s.cpu.pc := by cases o <;> simp [writeBack]
@[simp] theorem writeBack_addrAbs (o : Operand) (r : Byte) (s : State) :
    (writeBack o r s).cpu.addrAbs = s.cpu.addrAbs := by cases o <;> simp [writeBack]
@[simp] theorem writeBack_addrRel (o : Operand) (r : Byte) (s : State) :
    (writeBack o r s).cpu.addrRel = s.cpu.addrRel := by cases o <;> simp [writeBack]
@[simp] theorem writeBack_fetched (o : Operand) (r : Byte) (s : State) :
    (writeBack o r s).cpu.fetched = s.cpu.fetched := by cases o <;> simp [writeBack]
@[simp] theorem writeBack_opcode (o : Operand) (r : Byte) (s : State) :
    (writeBack o r s).cpu.opcode = s.cpu.opcode := by cases o <;> simp [writeBack]
@[simp] theorem writeBack_cycles (o : Operand) (r : Byte) (s : State) :
    (writeBack o r s).cpu.cycles = s.cpu.cycles := by cases o <;> simp [writeBack]
@[simp] theorem writeBack_sysClock (o : Operand) (r : Byte) (s : State) :
    (writeBack o r s).sysClock = s.sysClock := by cases o <;> simp [writeBack]
@[simp] theorem writeBack_params (o : Operand) (r : Byte) (s : State) :
    (writeBack o r s).params = s.params := by cases o <;> simp [writeBack]

/-! ### A whole instruction -/

/-- A well-formed instruction runs: its frame around its operation, at the opcode byte of its form. -/
theorem runEntry_next {i : Instr} (h : i.WellFormed) (x : Bool) (f : State → State) (s : State) :
    ∃ op, opcodeOf i = some op ∧ (table op).op = i.op ∧ (table op).mode = i.mode ∧
      runEntry i x f s
        = .next (endInstr (crossesPage i.operand s && x) (f (addrMode i.operand (beginInstr op s)))) := by
  obtain ⟨op, h1, h2, h3⟩ := Sys2Proof.Laws.TableEntry.everyInstruction i h
  refine ⟨op, h1, h2, h3, ?_⟩
  simp only [runEntry, h1, modeExtra_eq, beginInstr_eq]
  rw [crossesPage_withCpu i.operand s (begunCpu op s) rfl rfl]

/-- A term that is no instruction is refused by name. -/
theorem runEntry_none {i : Instr} (h : opcodeOf i = none) (x : Bool) (f : State → State) (s : State) :
    runEntry i x f s = .refused .noTableEntry := by
  simp only [runEntry, h]

/-- The operations that read their operand through fetch() have neither an IND nor a REL form
(R148, 30_encoding.md R127). -/
theorem mode_of_reader {i : Instr} (h : i.WellFormed) (hr : operandReaders.contains i.op = true) :
    i.operand.mode ≠ .ind ∧ i.operand.mode ≠ .rel := by
  have h1 : (legalModes i.op).contains i.mode = true := by
    simp only [Instr.WellFormed, Instr.wellFormed, Bool.and_eq_true] at h; exact h.1
  have h2 : ∀ (op : Op) (m : Mode), operandReaders.contains op = true →
      (legalModes op).contains m = true → m ≠ .ind ∧ m ≠ .rel := by
    intro op m; cases op <;> cases m <;> decide
  exact h2 i.op i.mode hr h1

/-- The CPU when the rest of a reading operation begins: the operand byte in `fetched`. -/
abbrev fetchedCpu (op : Byte) (o : Operand) (s : State) : Cpu :=
  { resolvedCpu op o s with fetched := operandByte o s }

/-- A well-formed instruction that reads its operand runs: what its operation does after fetch(), in its
frame. -/
theorem runEntry_reader {i : Instr} (h : i.WellFormed) (hr : operandReaders.contains i.op = true)
    (x : Bool) (f : State → State) (s : State) :
    ∃ op, opcodeOf i = some op ∧ (table op).op = i.op ∧ (table op).mode = i.mode ∧
      runEntry i x (fun u => f (fetchOperand i.operand u)) s
        = .next (endInstr (crossesPage i.operand s && x)
            (f ((afterOperandRead i.operand s).withCpu (fetchedCpu op i.operand s)))) := by
  obtain ⟨op, h1, h2, h3, h4⟩ := runEntry_next h x (fun u => f (fetchOperand i.operand u)) s
  obtain ⟨m1, m2⟩ := mode_of_reader h hr
  refine ⟨op, h1, h2, h3, ?_⟩
  rw [h4, fetchOperand_addrMode op s m1 m2]

/-- A well-formed instruction in any mode but IND that reads nothing through fetch() runs its operation from
the state the mode leaves. -/
theorem runEntry_plain {i : Instr} (h : i.WellFormed) (hm : i.operand.mode ≠ .ind) (x : Bool)
    (f : State → State) (s : State) :
    ∃ op, opcodeOf i = some op ∧ (table op).op = i.op ∧ (table op).mode = i.mode ∧
      runEntry i x f s
        = .next (endInstr (crossesPage i.operand s && x)
            (f (s.withCpu (resolvedCpu op i.operand s)))) := by
  obtain ⟨op, h1, h2, h3, h4⟩ := runEntry_next h x f s
  refine ⟨op, h1, h2, h3, ?_⟩
  rw [h4, addrMode_beginInstr' op s hm]

end Sys2Proof.Machine
end

