-- ==== Sys2Proof/Laws/Control.lean ====
section
/-!
SUPPORT. Laws of the operations that move control: a branch, taking an interrupt, returning from one.
-/

namespace Sys2Proof.Machine

open Sys2Proof

/-- A branch not taken changes nothing (44_control_transfer.md R230). -/
@[simp] theorem branch_false (s : State) : branch false s = s := rfl

/-- A taken branch changes PC, `addr_abs` and `cycles` alone (R230). -/
theorem branch_true (s : State) :
    branch true s
      = s.withCpu
          { s.cpu with
            pc := s.cpu.pc + s.cpu.addrRel
            addrAbs := s.cpu.pc + s.cpu.addrRel
            cycles :=
              s.cpu.cycles + 1 + (otherPage s.cpu.pc (s.cpu.pc + s.cpu.addrRel)).toNat } := by
  rw [← pageCrossed_eq]; rfl

/-- A word above the PPU's window reads the same whatever RAM, CPU and PPU hold. -/
theorem peek16_congr {s t : State} {a : Word} (h : 0x4000 ≤ a.toNat) (h' : a ≠ 0xFFFF)
    (hm : t.mem = s.mem) : peek16 t a = peek16 s a := by
  have hlt : a.toNat < 65535 := by
    rcases Nat.lt_or_ge a.toNat 65535 with h1 | h1
    · exact h1
    · exact absurd (BitVec.eq_of_toNat_eq (by simp; have := a.isLt; omega)) h'
  have hn : (a + 1).toNat = a.toNat + 1 := by rw [BitVec.toNat_add]; simp; omega
  have w1 : inPpuWindow a = false := by rw [inPpuWindow_eq_false_iff]; exact .inr h
  have w2 : inPpuWindow (a + 1) = false := by rw [inPpuWindow_eq_false_iff, hn]; omega
  have r1 : inRam a = false := by simp only [inRam, decide_eq_false_iff_not]; omega
  have r2 : inRam (a + 1) = false := by simp only [inRam, decide_eq_false_iff_not, hn]; omega
  simp only [peek16, peek_of_not_window w1, peek_of_not_window w2, r1, r2, hm, Bool.false_eq_true,
    ↓reduceIte]

/-- What taking an interrupt does before the vector is read: three bytes of RAM, SP and P
(60_exceptions.md R302, R303). -/
def interrupted (pushed live : Byte) (s : State) : State :=
  (s.setRam (pushed3 s (hiByte s.cpu.pc) (loByte s.cpu.pc) pushed)).withCpu
    { s.cpu with sp := s.cpu.sp - 3, p := putBit live bitI true }

/-- Taking an interrupt: the pushes, I, then PC from the vector. -/
theorem takeInterrupt_eq (pushed live : Byte) (vector : Word) (s : State) :
    takeInterrupt pushed live vector s
      = (memRead16 vector (interrupted pushed live s)).2.setPc
          (memRead16 vector (interrupted pushed live s)).1 := by
  simp only [takeInterrupt, pushWord_eq, push_eq]
  simp only [State.setSp_sp, BitVec.sub_sub]
  rfl

/-- Taking an interrupt through a vector in 0x4000 to 0xFFFE: the vector is the word that stood there, and
reading it changes nothing. -/
theorem takeInterrupt_of_high (pushed live : Byte) {vector : Word} (h : 0x4000 ≤ vector.toNat)
    (h' : vector ≠ 0xFFFF) (s : State) :
    takeInterrupt pushed live vector s
      = (interrupted pushed live s).setPc (peek16 s vector) := by
  rw [takeInterrupt_eq, memRead16_high _ vector h h']
  congr 1
  exact peek16_congr h h' rfl

/-- Returning from an interrupt: P less B and U, PC, and SP (44_control_transfer.md R243). -/
theorem returnFromInterrupt_eq (s : State) :
    returnFromInterrupt s
      = s.withCpu
          { s.cpu with
            p := putBit (putBit (stackByte s 1) bitB false) bitU false
            sp := s.cpu.sp + 3
            pc := word16 (stackByte s 3) (stackByte s 2) } := by
  have e2 : s.cpu.sp + 1 + 2 = s.cpu.sp + 3 := by rw [BitVec.add_assoc]; rfl
  have e1 : s.cpu.sp + 1 + 1 = s.cpu.sp + 2 := by rw [BitVec.add_assoc]; rfl
  simp only [returnFromInterrupt, popWord_eq, pop_eq, stackByte, State.setP_sp, State.setSp_sp, e1, e2]
  rfl

end Sys2Proof.Machine
end

