-- ==== Sys2Proof/Laws/Cartridge.lean ====
section
/-!
SUPPORT. Laws of the cartridge: the backing array it installs, and what installing it changes.
-/

namespace Sys2Proof.Machine

open Sys2Proof

/-- The installed backing array: PRG from 0x8000 to 0xFFFF, repeating with its size, and 0 elsewhere
(20_memory.md R92). -/
theorem programImage_read (c : Cartridge) (k : Nat) :
    (programImage c).read k
      = if 0x8000 ≤ k ∧ k < 0x10000 then c.prg.read ((k - 0x8000) % (16384 * c.prgBanks.toNat))
        else 0 := by
  simp only [programImage]
  rw [Memory.read_ofBytes]
  by_cases h : 0x8000 ≤ k
  · rw [if_pos h]
    by_cases h2 : k < 0x10000
    · rw [if_pos ⟨h, h2⟩, List.getD_eq_getElem?_getD, List.getElem?_map,
        List.getElem?_range (by omega)]
      rfl
    · rw [if_neg (by omega), List.getD_eq_getElem?_getD, List.getElem?_eq_none (by simp; omega)]
      rfl
  · rw [if_neg h, if_neg (by omega)]

theorem programImage_wf (c : Cartridge) : (programImage c).wf = true := Memory.wf_ofBytes _ _

theorem programImage_below (c : Cartridge) : (programImage c).below 65536 = true :=
  Memory.below_ofBytes _ _ _ (by simp)

/-- A reset vector reads as the two bytes that stand in the backing array. -/
theorem peek16_resetVector (s : State) :
    peek16 s resetVector = word16 (s.mem.read 0xFFFD) (s.mem.read 0xFFFC) := rfl

/-- Installing a cartridge changes the backing array, the cartridge and PC (R99). -/
theorem installCartridge_eq (c : Cartridge) (s : State) :
    installCartridge c s
      = { s with
          mem := programImage c
          cart := some c
          cpu :=
            { s.cpu with
              pc := word16 ((programImage c).read 0xFFFD) ((programImage c).read 0xFFFC) } } := by
  simp only [installCartridge]
  generalize programImage c = m
  rw [memRead16_high _ resetVector (by decide) (by decide), peek16_resetVector]
  rfl

/-- `cpu.reset()` changes the CPU's registers alone (70_reset_and_hazards.md R402). -/
theorem cpuReset_frame (s : State) : cpuReset s = s.withCpu (cpuReset s).cpu := by
  simp only [cpuReset]
  rw [memRead16_high s resetVector (by decide) (by decide)]

end Sys2Proof.Machine
end

