-- ==== Sys2Proof/Tests/Slice0.lean ====
section
/-!
SUPPORT. Tests of the definitions, and for each statement with hypotheses a state and operands that meet
them. The expected values are those of 95_test_vectors.md (V, W, M, Q, I, L) and of the encoding tables,
worked out in the spec, not read from the model.
-/

namespace Sys2Proof.Tests

open Sys2Proof Sys2Proof.Machine

/-! ### Helpers -/

/-- S0 of 95_test_vectors.md. -/
def s0 : State :=
  { State.reset with cpu := { State.reset.cpu with pc := 0x8000, cycles := 0 } }

/-- S0 with A, X, Y, SP and P. -/
def sRegs (a x y sp p : Byte) : State :=
  { s0 with cpu := { s0.cpu with a := a, x := x, y := y, sp := sp, p := p } }

/-- A state with bytes of RAM. -/
def withRam (bytes : List (Nat × Byte)) (s : State) : State :=
  bytes.foldl (fun s c => s.setRam (s.ram.write c.1 c.2)) s

/-- A state with bytes of the backing array. -/
def withMem (bytes : List (Nat × Byte)) (s : State) : State :=
  bytes.foldl (fun s c => s.setMem (s.mem.write c.1 c.2)) s

/-- The state an outcome goes on with. -/
def stateOf (o : Host.Outcome State Fault Refusal) : Option State :=
  match o with
  | .next t => some t
  | .fault _ => none
  | .refused _ => none

/-- A, X, Y, SP, P, then PC and the cost of an instruction. -/
def after (i : Instr) (s : State) : Option (List Byte × Word × Nat) :=
  (stateOf (exec i s)).map fun t =>
    ([t.cpu.a, t.cpu.x, t.cpu.y, t.cpu.sp, t.cpu.p], t.cpu.pc, t.cpu.cycles)

/-- RAM bytes after an instruction. -/
def ramAfter (i : Instr) (s : State) (addrs : List Nat) : Option (List Byte) :=
  (stateOf (exec i s)).map fun t => addrs.map t.ram.read

/-- The refusal of an outcome. -/
def refusalOf (o : Host.Outcome State Fault Refusal) : Option Refusal :=
  match o with
  | .next _ => none
  | .fault _ => none
  | .refused r => some r

/-- A horizontal cartridge of one PRG bank, all of it 0, with CHR RAM. -/
def cartRam : Cartridge :=
  { prgBanks := 1, chrBanks := 0, mapper := 0, mirroring := .horizontal, prg := [], chr := [] }

/-- The same with CHR ROM. -/
def cartRom : Cartridge := { cartRam with chrBanks := 1 }

/-- S0 with a cartridge. -/
def s1 (c : Cartridge) : State := s0.setCart (some c)

/-- S0 with the PPU's registers changed. -/
def sPpu (p : Ppu → Ppu) : State := (s1 cartRam).setPpu (p s0.ppu)

/-! ### Smoke: each check of WellFormed refuses an ill-formed term -/

/-- A store has no immediate form (R183), JMP no zero-page form (R239), a shift no indirect one. -/
theorem test_form_check_refuses :
    (Instr.sta (.imm 5)).wellFormed = false ∧ (Instr.jmp (.zp0 0x10)).wellFormed = false
      ∧ (Instr.asl (.izx 0x10)).wellFormed = false ∧ (Instr.lda .imp).wellFormed = false
      ∧ (Instr.sta (.imm 5)).invalidOk = true := by decide

/-- 0xA9 is LDA IMM, so no INVALID byte (R127, R128). -/
theorem test_invalid_check_refuses :
    (Instr.invalid 0xA9).wellFormed = false ∧ (Instr.invalid 0xA9).formOk = true
      ∧ (Instr.invalid 0xEB).wellFormed = true := by decide

/-- An ill-formed term is refused by name, never run (log 13). -/
theorem test_ill_formed_is_refused :
    refusalOf (exec (.sta (.imm 5)) s0) = some .noTableEntry
      ∧ refusalOf (exec (.invalid 0xA9) s0) = some .noTableEntry
      ∧ refusalOf (exec (.sta (.zp0 5)) s0) = none := by decide

/-! ### Decoding: words written out from R121, R125 and R127 -/

/-- 41_load_store.md: LDA ($20),Y; LDX $10,Y; LDY $1234,X; STA ($20,X); STX $10,Y; STY $1234. -/
theorem test_decode_loads_stores :
    decodeTableWord 16 0x20B1 = some (.lda (.izy 0x20)) ∧
    decodeTableWord 16 0x10B6 = some (.ldx (.zpy 0x10)) ∧
    decodeTableWord 24 0x1234BC = some (.ldy (.abx 0x1234)) ∧
    decodeTableWord 16 0x2081 = some (.sta (.izx 0x20)) ∧
    decodeTableWord 16 0x1096 = some (.stx (.zpy 0x10)) ∧
    decodeTableWord 24 0x12348C = some (.sty (.abs 0x1234)) := by decide

/-- 42_arithmetic_logic.md: one row of each operation. -/
theorem test_decode_arithmetic :
    decodeTableWord 16 0xFF69 = some (.adc (.imm 0xFF)) ∧
    decodeTableWord 24 0x8000F9 = some (.sbc (.aby 0x8000)) ∧
    decodeTableWord 16 0x2021 = some (.and (.izx 0x20)) ∧
    decodeTableWord 16 0x2055 = some (.eor (.zpx 0x20)) ∧
    decodeTableWord 24 0x01021D = some (.ora (.abx 0x0102)) ∧
    decodeTableWord 24 0x01022C = some (.bit (.abs 0x0102)) ∧
    decodeTableWord 16 0x20D1 = some (.cmp (.izy 0x20)) ∧
    decodeTableWord 16 0x20E4 = some (.cpx (.zp0 0x20)) ∧
    decodeTableWord 16 0x20C0 = some (.cpy (.imm 0x20)) ∧
    decodeTableWord 24 0x0102FE = some (.inc (.abx 0x0102)) ∧
    decodeTableWord 16 0x20D6 = some (.dec (.zpx 0x20)) ∧
    decodeTableWord 8 0xE8 = some .inx ∧
    decodeTableWord 8 0xC8 = some .iny ∧
    decodeTableWord 8 0xCA = some .dex ∧
    decodeTableWord 8 0x88 = some .dey := by decide

/-- 43_shift_rotate.md: accumulator and memory forms. -/
theorem test_decode_shifts :
    decodeTableWord 8 0x0A = some (.asl .imp) ∧
    decodeTableWord 16 0x2046 = some (.lsr (.zp0 0x20)) ∧
    decodeTableWord 24 0x01022E = some (.rol (.abs 0x0102)) ∧
    decodeTableWord 24 0x01027E = some (.ror (.abx 0x0102)) := by decide

/-- 44_control_transfer.md. -/
theorem test_decode_control :
    decodeTableWord 16 0x8090 = some (.bcc 0x80) ∧
    decodeTableWord 16 0x01B0 = some (.bcs 0x01) ∧
    decodeTableWord 16 0x01F0 = some (.beq 0x01) ∧
    decodeTableWord 16 0xFAD0 = some (.bne 0xFA) ∧
    decodeTableWord 16 0x0130 = some (.bmi 0x01) ∧
    decodeTableWord 16 0x0110 = some (.bpl 0x01) ∧
    decodeTableWord 16 0x0150 = some (.bvc 0x01) ∧
    decodeTableWord 16 0x0170 = some (.bvs 0x01) ∧
    decodeTableWord 24 0x12344C = some (.jmp (.abs 0x1234)) ∧
    decodeTableWord 24 0x12346C = some (.jmp (.ind 0x1234)) ∧
    decodeTableWord 24 0x900020 = some (.jsr 0x9000) ∧
    decodeTableWord 8 0x60 = some .rts ∧
    decodeTableWord 16 0xEA00 = some .brk ∧
    decodeTableWord 8 0x40 = some .rti := by decide

/-- 45_stack_flags_transfer.md. -/
theorem test_decode_stack_flags :
    decodeTableWord 8 0x48 = some .pha ∧
    decodeTableWord 8 0x08 = some .php ∧
    decodeTableWord 8 0x68 = some .pla ∧
    decodeTableWord 8 0x28 = some .plp ∧
    decodeTableWord 8 0x18 = some .clc ∧
    decodeTableWord 8 0xD8 = some .cld ∧
    decodeTableWord 8 0x58 = some .cli ∧
    decodeTableWord 8 0xB8 = some .clv ∧
    decodeTableWord 8 0x38 = some .sec ∧
    decodeTableWord 8 0xF8 = some .sed ∧
    decodeTableWord 8 0x78 = some .sei := by decide

/-- 45_stack_flags_transfer.md; 0x80, 0x04 and 0xFF are INVALID and one byte long (R128). -/
theorem test_decode_transfers :
    decodeTableWord 8 0xAA = some .tax ∧
    decodeTableWord 8 0xA8 = some .tay ∧
    decodeTableWord 8 0xBA = some .tsx ∧
    decodeTableWord 8 0x8A = some .txa ∧
    decodeTableWord 8 0x9A = some .txs ∧
    decodeTableWord 8 0x98 = some .tya ∧
    decodeTableWord 8 0xEA = some .nop ∧
    decodeTableWord 8 0x80 = some (.invalid 0x80) ∧
    decodeTableWord 8 0x04 = some (.invalid 0x04) ∧
    decodeTableWord 8 0xFF = some (.invalid 0xFF) := by decide

/-- The decoder reads as many bytes as the mode has, and names a short input (R120, R129). -/
theorem test_decode_length :
    decode [0xA9, 0x05, 0xEA] = .ok (.lda (.imm 0x05), [0xEA])
      ∧ decode [0x80, 0x05] = .ok (.invalid 0x80, [0x05])
      ∧ (Instr.brk).length = 2 ∧ (Instr.jsr 0).length = 3 := by decide

/-- The encoder writes the low operand byte first (R125). -/
theorem test_encode :
    encode (.jmp (.ind 0x02FF)) = [0x6C, 0xFF, 0x02] ∧ encode (.bne 0xFA) = [0xD0, 0xFA]
      ∧ encode .tya = [0x98] := by decide

/-! ### One vector per instruction, two where it has two sides -/

/-- V3 (page crossed), V10. -/
theorem test_lda :
    after (.lda (.abx 0x10F0)) (withRam [(0x0110, 0x7F)] (sRegs 0x00 0x20 0x00 0xFD 0x20))
      = some ([0x7F, 0x20, 0x00, 0xFD, 0x20], 0x8003, 5)
    ∧ after (.lda (.izy 0xFF)) (withRam [(0x00FF, 0xF8), (0x0000, 0x01), (0x0208, 0xC3)] (sRegs 0x00 0x00 0x10 0xFD 0x20))
      = some ([0xC3, 0x00, 0x10, 0xFD, 0xA0], 0x8002, 6) := by decide

/-- V9: the pointer's high byte comes from 0x00. -/
theorem test_lda_izx :
    after (.lda (.izx 0xFF)) (withRam [(0x00FF, 0x34), (0x0000, 0x02), (0x0234, 0x5A)] s0)
      = some ([0x5A, 0x00, 0x00, 0xFD, 0x20], 0x8002, 6) := by decide

/-- V5. -/
theorem test_ldx :
    after (.ldx (.zpy 0xFF)) (withRam [(0x0001, 0x99)] (sRegs 0x00 0x00 0x02 0xFD 0x20))
      = some ([0x00, 0x99, 0x02, 0xFD, 0xA0], 0x8002, 4) := by decide

/-- V8. -/
theorem test_ldy :
    after (.ldy (.zpx 0xFF)) (sRegs 0x00 0x01 0x00 0xFD 0x20)
      = some ([0x00, 0x01, 0x00, 0xFD, 0x22], 0x8002, 4) := by decide

/-- V6, V7. -/
theorem test_sta :
    after (.sta (.abx 0x0200)) (sRegs 0x42 0xFF 0x00 0xFD 0x20)
      = some ([0x42, 0xFF, 0x00, 0xFD, 0x20], 0x8003, 5)
    ∧ ramAfter (.sta (.abx 0x0200)) (sRegs 0x42 0xFF 0x00 0xFD 0x20) [0x02FF]
      = some [0x42]
    ∧ after (.sta (.abs 0x0800)) (sRegs 0x42 0x00 0x00 0xFD 0x20)
      = some ([0x42, 0x00, 0x00, 0xFD, 0x20], 0x8003, 4)
    ∧ ramAfter (.sta (.abs 0x0800)) (sRegs 0x42 0x00 0x00 0xFD 0x20) [0x0000]
      = some [0x42] := by decide

/-- V12. -/
theorem test_stx :
    after (.stx (.zpy 0x10)) (sRegs 0x00 0x77 0xF5 0xFD 0x20)
      = some ([0x00, 0x77, 0xF5, 0xFD, 0x20], 0x8002, 4)
    ∧ ramAfter (.stx (.zpy 0x10)) (sRegs 0x00 0x77 0xF5 0xFD 0x20) [0x0005]
      = some [0x77] := by decide

/-- V13. -/
theorem test_sty :
    after (.sty (.abs 0x1234)) (sRegs 0x00 0x00 0x09 0xFD 0x20)
      = some ([0x00, 0x00, 0x09, 0xFD, 0x20], 0x8003, 4)
    ∧ ramAfter (.sty (.abs 0x1234)) (sRegs 0x00 0x00 0x09 0xFD 0x20) [0x0234]
      = some [0x09] := by decide

/-- V20, V26 (D has no effect). -/
theorem test_adc :
    after (.adc (.imm 0x50)) (sRegs 0x50 0x00 0x00 0xFD 0x20)
      = some ([0xA0, 0x00, 0x00, 0xFD, 0xE0], 0x8002, 2)
    ∧ after (.adc (.imm 0x01)) (sRegs 0x09 0x00 0x00 0xFD 0x28)
      = some ([0x0A, 0x00, 0x00, 0xFD, 0x28], 0x8002, 2) := by decide

/-- V24, V33. -/
theorem test_adc_carry :
    after (.adc (.imm 0xFF)) (sRegs 0x01 0x00 0x00 0xFD 0x21)
      = some ([0x01, 0x00, 0x00, 0xFD, 0x21], 0x8002, 2)
    ∧ after (.adc (.aby 0x10F0)) (withRam [(0x0110, 0x01)] (sRegs 0x01 0x00 0x20 0xFD 0x20))
      = some ([0x02, 0x00, 0x20, 0xFD, 0x20], 0x8003, 5) := by decide

/-- V28, V30, V31. -/
theorem test_sbc :
    after (.sbc (.imm 0xB0)) (sRegs 0x50 0x00 0x00 0xFD 0x21)
      = some ([0xA0, 0x00, 0x00, 0xFD, 0xE0], 0x8002, 2)
    ∧ after (.sbc (.imm 0x03)) (sRegs 0x05 0x00 0x00 0xFD 0x20)
      = some ([0x01, 0x00, 0x00, 0xFD, 0x21], 0x8002, 2)
    ∧ after (.sbc (.imm 0x01)) (sRegs 0x80 0x00 0x00 0xFD 0x21)
      = some ([0x7F, 0x00, 0x00, 0xFD, 0x61], 0x8002, 2) := by decide

/-- V40. -/
theorem test_and :
    after (.and (.imm 0x0F)) (sRegs 0xF0 0x00 0x00 0xFD 0x20)
      = some ([0x00, 0x00, 0x00, 0xFD, 0x22], 0x8002, 2) := by decide

/-- V41. -/
theorem test_ora :
    after (.ora (.imm 0x80)) s0
      = some ([0x80, 0x00, 0x00, 0xFD, 0xA0], 0x8002, 2) := by decide

/-- V42. -/
theorem test_eor :
    after (.eor (.imm 0xFF)) (sRegs 0xFF 0x00 0x00 0xFD 0x20)
      = some ([0x00, 0x00, 0x00, 0xFD, 0x22], 0x8002, 2) := by decide

/-- V43, V44. -/
theorem test_bit :
    after (.bit (.zp0 0x10)) (withRam [(0x0010, 0xC0)] (sRegs 0x0F 0x00 0x00 0xFD 0x20))
      = some ([0x0F, 0x00, 0x00, 0xFD, 0xE2], 0x8002, 3)
    ∧ after (.bit (.zp0 0x10)) (withRam [(0x0010, 0x01)] (sRegs 0x01 0x00 0x00 0xFD 0xE0))
      = some ([0x01, 0x00, 0x00, 0xFD, 0x20], 0x8002, 3) := by decide

/-- V46, V50. -/
theorem test_cmp :
    after (.cmp (.imm 0x20)) (sRegs 0x10 0x00 0x00 0xFD 0x20)
      = some ([0x10, 0x00, 0x00, 0xFD, 0xA0], 0x8002, 2)
    ∧ after (.cmp (.abx 0x10F0)) (withRam [(0x0110, 0x05)] (sRegs 0x05 0x20 0x00 0xFD 0x20))
      = some ([0x05, 0x20, 0x00, 0xFD, 0x23], 0x8003, 5) := by decide

/-- V51. -/
theorem test_cpx :
    after (.cpx (.abs 0x1234)) (withRam [(0x0234, 0x06)] (sRegs 0x00 0x05 0x00 0xFD 0x20))
      = some ([0x00, 0x05, 0x00, 0xFD, 0xA0], 0x8003, 4) := by decide

/-- V49. -/
theorem test_cpy :
    after (.cpy (.imm 0xFF)) (sRegs 0x00 0x00 0xFE 0xFD 0x20)
      = some ([0x00, 0x00, 0xFE, 0xFD, 0xA0], 0x8002, 2) := by decide

/-- V55, V59 (no page-cross cycle). -/
theorem test_inc :
    after (.inc (.zp0 0x10)) (withRam [(0x0010, 0xFF)] s0)
      = some ([0x00, 0x00, 0x00, 0xFD, 0x22], 0x8002, 5)
    ∧ ramAfter (.inc (.zp0 0x10)) (withRam [(0x0010, 0xFF)] s0) [0x0010]
      = some [0x00]
    ∧ after (.inc (.abx 0x10FF)) (withRam [(0x0100, 0x7F)] (sRegs 0x00 0x01 0x00 0xFD 0x20))
      = some ([0x00, 0x01, 0x00, 0xFD, 0xA0], 0x8003, 7)
    ∧ ramAfter (.inc (.abx 0x10FF)) (withRam [(0x0100, 0x7F)] (sRegs 0x00 0x01 0x00 0xFD 0x20)) [0x0100]
      = some [0x80] := by decide

/-- V56. -/
theorem test_dec :
    after (.dec (.zp0 0x10)) s0
      = some ([0x00, 0x00, 0x00, 0xFD, 0xA0], 0x8002, 5)
    ∧ ramAfter (.dec (.zp0 0x10)) s0 [0x0010]
      = some [0xFF] := by decide

/-- V57. -/
theorem test_inx :
    after .inx (sRegs 0x00 0xFF 0x00 0xFD 0x20)
      = some ([0x00, 0x00, 0x00, 0xFD, 0x22], 0x8001, 2) := by decide

/-- V60. -/
theorem test_iny :
    after .iny (sRegs 0x00 0x00 0x7F 0xFD 0x20)
      = some ([0x00, 0x00, 0x80, 0xFD, 0xA0], 0x8001, 2) := by decide

/-- V61. -/
theorem test_dex :
    after .dex (sRegs 0x00 0x01 0x00 0xFD 0x20)
      = some ([0x00, 0x00, 0x00, 0xFD, 0x22], 0x8001, 2) := by decide

/-- V58. -/
theorem test_dey :
    after .dey s0
      = some ([0x00, 0x00, 0xFF, 0xFD, 0xA0], 0x8001, 2) := by decide

/-- V65, V70. -/
theorem test_asl :
    after (.asl .imp) (sRegs 0x80 0x00 0x00 0xFD 0x20)
      = some ([0x00, 0x00, 0x00, 0xFD, 0x23], 0x8001, 2)
    ∧ after (.asl (.zpx 0x10)) (withRam [(0x0011, 0x41)] (sRegs 0x00 0x01 0x00 0xFD 0x20))
      = some ([0x00, 0x01, 0x00, 0xFD, 0xA0], 0x8002, 6)
    ∧ ramAfter (.asl (.zpx 0x10)) (withRam [(0x0011, 0x41)] (sRegs 0x00 0x01 0x00 0xFD 0x20)) [0x0011]
      = some [0x82] := by decide

/-- V66, V71. -/
theorem test_lsr :
    after (.lsr (.zp0 0x10)) (withRam [(0x0010, 0x03)] s0)
      = some ([0x00, 0x00, 0x00, 0xFD, 0x21], 0x8002, 5)
    ∧ ramAfter (.lsr (.zp0 0x10)) (withRam [(0x0010, 0x03)] s0) [0x0010]
      = some [0x01]
    ∧ after (.lsr .imp) (sRegs 0x01 0x00 0x00 0xFD 0x20)
      = some ([0x00, 0x00, 0x00, 0xFD, 0x23], 0x8001, 2) := by decide

/-- V67, V72. -/
theorem test_rol :
    after (.rol .imp) (sRegs 0x00 0x00 0x00 0xFD 0x21)
      = some ([0x01, 0x00, 0x00, 0xFD, 0x20], 0x8001, 2)
    ∧ after (.rol (.abs 0x1234)) (withRam [(0x0234, 0x80)] s0)
      = some ([0x00, 0x00, 0x00, 0xFD, 0x23], 0x8003, 6)
    ∧ ramAfter (.rol (.abs 0x1234)) (withRam [(0x0234, 0x80)] s0) [0x0234]
      = some [0x00] := by decide

/-- V68, V69. -/
theorem test_ror :
    after (.ror (.zp0 0x10)) (withRam [(0x0010, 0x01)] (sRegs 0x00 0x00 0x00 0xFD 0x21))
      = some ([0x00, 0x00, 0x00, 0xFD, 0xA1], 0x8002, 5)
    ∧ ramAfter (.ror (.zp0 0x10)) (withRam [(0x0010, 0x01)] (sRegs 0x00 0x00 0x00 0xFD 0x21)) [0x0010]
      = some [0x80]
    ∧ after (.ror .imp) s0
      = some ([0x00, 0x00, 0x00, 0xFD, 0x22], 0x8001, 2) := by decide

/-- V80, V81. -/
theorem test_beq :
    after (.beq 0x05) s0
      = some ([0x00, 0x00, 0x00, 0xFD, 0x20], 0x8002, 2)
    ∧ after (.beq 0x05) (sRegs 0x00 0x00 0x00 0xFD 0x22)
      = some ([0x00, 0x00, 0x00, 0xFD, 0x22], 0x8007, 3) := by decide

/-- V82, V89. -/
theorem test_bne :
    after (.bne 0xFD) s0
      = some ([0x00, 0x00, 0x00, 0xFD, 0x20], 0x7FFF, 4)
    ∧ after (.bne 0xFE) s0
      = some ([0x00, 0x00, 0x00, 0xFD, 0x20], 0x8000, 3) := by decide

/-- V83. -/
theorem test_bcc :
    after (.bcc 0x7F) (s0.setPc 0x80F0)
      = some ([0x00, 0x00, 0x00, 0xFD, 0x20], 0x8171, 4) := by decide

/-- V84. -/
theorem test_bmi :
    after (.bmi 0x02) ((sRegs 0x00 0x00 0x00 0xFD 0xA0).setPc 0x80FD)
      = some ([0x00, 0x00, 0x00, 0xFD, 0xA0], 0x8101, 4) := by decide

/-- V85. -/
theorem test_bpl :
    after (.bpl 0x80) (s0.setPc 0x8100)
      = some ([0x00, 0x00, 0x00, 0xFD, 0x20], 0x8082, 4) := by decide

/-- V86. -/
theorem test_bvs :
    after (.bvs 0x10) s0
      = some ([0x00, 0x00, 0x00, 0xFD, 0x20], 0x8002, 2) := by decide

/-- V87. -/
theorem test_bvc :
    after (.bvc 0x10) s0
      = some ([0x00, 0x00, 0x00, 0xFD, 0x20], 0x8012, 3) := by decide

/-- V88. -/
theorem test_bcs :
    after (.bcs 0x10) (sRegs 0x00 0x00 0x00 0xFD 0x21)
      = some ([0x00, 0x00, 0x00, 0xFD, 0x21], 0x8012, 3) := by decide

/-- V90, V99 (the stack wraps). -/
theorem test_jsr :
    after (.jsr 0x9000) s0
      = some ([0x00, 0x00, 0x00, 0xFB, 0x20], 0x9000, 6)
    ∧ ramAfter (.jsr 0x9000) s0 [0x01FD, 0x01FC]
      = some [0x80, 0x02]
    ∧ after (.jsr 0x8000) (sRegs 0x00 0x00 0x00 0x00 0x20)
      = some ([0x00, 0x00, 0x00, 0xFE, 0x20], 0x8000, 6)
    ∧ ramAfter (.jsr 0x8000) (sRegs 0x00 0x00 0x00 0x00 0x20) [0x0100, 0x01FF]
      = some [0x80, 0x02] := by decide

/-- V91, V92. -/
theorem test_rts :
    after .rts (withRam [(0x01FC, 0x02), (0x01FD, 0x80)] (sRegs 0x00 0x00 0x00 0xFB 0x20))
      = some ([0x00, 0x00, 0x00, 0xFD, 0x20], 0x8003, 6)
    ∧ after .rts (withRam [(0x01FC, 0xFF), (0x01FD, 0xFF)] (sRegs 0x00 0x00 0x00 0xFB 0x20))
      = some ([0x00, 0x00, 0x00, 0xFD, 0x20], 0x0000, 6) := by decide

/-- V93, V94 (the page-wrap bug). -/
theorem test_jmp :
    after (.jmp (.abs 0x1234)) s0
      = some ([0x00, 0x00, 0x00, 0xFD, 0x20], 0x1234, 3)
    ∧ after (.jmp (.ind 0x02FF)) (withRam [(0x02FF, 0x34), (0x0200, 0x12), (0x0300, 0x99)] s0)
      = some ([0x00, 0x00, 0x00, 0xFD, 0x20], 0x1234, 5) := by decide

/-- V96. -/
theorem test_brk :
    after .brk (withMem [(0xFFFE, 0x00), (0xFFFF, 0x90)] s0)
      = some ([0x00, 0x00, 0x00, 0xFA, 0x24], 0x9000, 7)
    ∧ ramAfter .brk (withMem [(0xFFFE, 0x00), (0xFFFF, 0x90)] s0) [0x01FD, 0x01FC, 0x01FB]
      = some [0x80, 0x02, 0x30] := by decide

/-- V97, V98. -/
theorem test_rti :
    after .rti (withRam [(0x01FB, 0x30), (0x01FC, 0x02), (0x01FD, 0x80)] (sRegs 0x00 0x00 0x00 0xFA 0x20))
      = some ([0x00, 0x00, 0x00, 0xFD, 0x20], 0x8002, 6)
    ∧ after .rti (withRam [(0x01FB, 0xFF), (0x01FC, 0x34), (0x01FD, 0x12)] (sRegs 0x00 0x00 0x00 0xFA 0x20))
      = some ([0x00, 0x00, 0x00, 0xFD, 0xEF], 0x1234, 6) := by decide

/-- V100, V105. -/
theorem test_pha :
    after .pha (sRegs 0x42 0x00 0x00 0xFD 0x20)
      = some ([0x42, 0x00, 0x00, 0xFC, 0x20], 0x8001, 3)
    ∧ ramAfter .pha (sRegs 0x42 0x00 0x00 0xFD 0x20) [0x01FD]
      = some [0x42]
    ∧ after .pha (sRegs 0x77 0x00 0x00 0x00 0x20)
      = some ([0x77, 0x00, 0x00, 0xFF, 0x20], 0x8001, 3)
    ∧ ramAfter .pha (sRegs 0x77 0x00 0x00 0x00 0x20) [0x0100]
      = some [0x77] := by decide

/-- V101. -/
theorem test_php :
    after .php (sRegs 0x00 0x00 0x00 0xFD 0x21)
      = some ([0x00, 0x00, 0x00, 0xFC, 0x21], 0x8001, 3)
    ∧ ramAfter .php (sRegs 0x00 0x00 0x00 0xFD 0x21) [0x01FD]
      = some [0x31] := by decide

/-- V102, V106. -/
theorem test_pla :
    after .pla (sRegs 0x55 0x00 0x00 0xFC 0x20)
      = some ([0x00, 0x00, 0x00, 0xFD, 0x22], 0x8001, 4)
    ∧ after .pla (withRam [(0x0100, 0x80)] (sRegs 0x00 0x00 0x00 0xFF 0x20))
      = some ([0x80, 0x00, 0x00, 0x00, 0xA0], 0x8001, 4) := by decide

/-- V103, V104. -/
theorem test_plp :
    after .plp (withRam [(0x01FD, 0x31)] (sRegs 0x00 0x00 0x00 0xFC 0x20))
      = some ([0x00, 0x00, 0x00, 0xFD, 0x31], 0x8001, 4)
    ∧ after .plp (sRegs 0x00 0x00 0x00 0xFC 0x20)
      = some ([0x00, 0x00, 0x00, 0xFD, 0x20], 0x8001, 4) := by decide

/-- V110. -/
theorem test_sec :
    after .sec s0
      = some ([0x00, 0x00, 0x00, 0xFD, 0x21], 0x8001, 2) := by decide

/-- V111. -/
theorem test_sed :
    after .sed s0
      = some ([0x00, 0x00, 0x00, 0xFD, 0x28], 0x8001, 2) := by decide

/-- V112. -/
theorem test_sei :
    after .sei s0
      = some ([0x00, 0x00, 0x00, 0xFD, 0x24], 0x8001, 2) := by decide

/-- V113. -/
theorem test_clv :
    after .clv (sRegs 0x00 0x00 0x00 0xFD 0x60)
      = some ([0x00, 0x00, 0x00, 0xFD, 0x20], 0x8001, 2) := by decide

/-- V114. -/
theorem test_clc :
    after .clc (sRegs 0x00 0x00 0x00 0xFD 0x2F)
      = some ([0x00, 0x00, 0x00, 0xFD, 0x2E], 0x8001, 2) := by decide

/-- V114. -/
theorem test_cld :
    after .cld (sRegs 0x00 0x00 0x00 0xFD 0x2F)
      = some ([0x00, 0x00, 0x00, 0xFD, 0x27], 0x8001, 2) := by decide

/-- V114. -/
theorem test_cli :
    after .cli (sRegs 0x00 0x00 0x00 0xFD 0x2F)
      = some ([0x00, 0x00, 0x00, 0xFD, 0x2B], 0x8001, 2) := by decide

/-- V115. -/
theorem test_tsx :
    after .tsx s0
      = some ([0x00, 0xFD, 0x00, 0xFD, 0xA0], 0x8001, 2) := by decide

/-- V116. -/
theorem test_txs :
    after .txs s0
      = some ([0x00, 0x00, 0x00, 0x00, 0x20], 0x8001, 2) := by decide

/-- V117. -/
theorem test_tay :
    after .tay (sRegs 0x00 0x00 0x01 0xFD 0x20)
      = some ([0x00, 0x00, 0x00, 0xFD, 0x22], 0x8001, 2) := by decide

/-- V118. -/
theorem test_tax :
    after .tax (sRegs 0x81 0x00 0x00 0xFD 0x20)
      = some ([0x81, 0x81, 0x00, 0xFD, 0xA0], 0x8001, 2) := by decide

/-- V118. -/
theorem test_txa :
    after .txa (sRegs 0x00 0x81 0x00 0xFD 0x20)
      = some ([0x81, 0x81, 0x00, 0xFD, 0xA0], 0x8001, 2) := by decide

/-- V118. -/
theorem test_tya :
    after .tya (sRegs 0x55 0x00 0x00 0xFD 0x20)
      = some ([0x00, 0x00, 0x00, 0xFD, 0x22], 0x8001, 2) := by decide

/-- V119. -/
theorem test_nop :
    after .nop s0
      = some ([0x00, 0x00, 0x00, 0xFD, 0x20], 0x8001, 2) := by decide

/-- V121, V123. -/
theorem test_invalid :
    after (.invalid 0xFF) s0
      = some ([0x00, 0x00, 0x00, 0xFD, 0x20], 0x8001, 7)
    ∧ after (.invalid 0xEB) (sRegs 0x05 0x00 0x00 0xFD 0x21)
      = some ([0x05, 0x00, 0x00, 0xFD, 0x21], 0x8001, 2) := by decide

/-! ### Memory, the ports, the cartridge, interrupts, the clock -/

/-- M1: an LDA of the status port; vertical blank and the toggle are cleared. -/
theorem test_status_read :
    after (.lda (.abs 0x2002)) (sPpu fun p => { p with verticalBlank := true, w := true, ppuBus := 0x1F })
      = some ([0x9F, 0x00, 0x00, 0xFD, 0xA0], 0x8003, 4)
    ∧ (stateOf (exec (.lda (.abs 0x2002)) (sPpu fun p => { p with verticalBlank := true, w := true }))).map
        (fun t => (t.ppu.verticalBlank, t.ppu.w)) = some (false, false) := by decide

/-- M2, M3, M6: unmapped addresses read 0; 0x3FFA mirrors 0x2002. -/
theorem test_bus_reads :
    (memRead 0x4000 s0).1 = 0x00 ∧ (memRead 0x7FFF s0).1 = 0x00
    ∧ (memRead 0x3FFA (sPpu fun p => { p with verticalBlank := true, ppuBus := 0x0B })).1 = 0x8B := by
  decide

/-- M4: a write to ROM space lands in the fallback array; under the parameter it lands in RAM. -/
theorem test_fallback_write :
    (memWrite 0x8000 0x5A s0).mem.read 0 = 0x5A ∧ (memWrite 0x8000 0x5A s0).ram.read 0 = 0x00
    ∧ peek (memWrite 0x8000 0x5A (withMem [(0x8000, 0x11)] s0)) 0x8000 = 0x11
    ∧ (memWrite 0x8000 0x5A
        { s0 with params := { Params.default with fallbackAliasesRam := true } }).ram.read 0 = 0x5A := by
  decide

/-- M5: RAM is mirrored four times. -/
theorem test_ram_mirrors :
    [0x07FF, 0x0FFF, 0x17FF, 0x1FFF].map (peek (memWrite 0x1FFF 0x33 s0)) = [0x33, 0x33, 0x33, 0x33] := by
  decide

/-- M7: a peek returns the value and changes nothing. -/
theorem test_peek :
    busRead 0x2002 true (sPpu fun p => { p with verticalBlank := true, w := true })
      = (0x80, sPpu fun p => { p with verticalBlank := true, w := true }) := by decide

/-- Q1, Q2: the scroll port. -/
theorem test_scroll_port :
    let s := memWrite 0x2005 0x5E (memWrite 0x2005 0x7D s0)
    s.ppu.fineX = 5 ∧ s.ppu.t = 0x616F ∧ s.ppu.w = false ∧ s.ppu.v = 0 := by decide

/-- Q3, Q4: the address port. -/
theorem test_address_port :
    (memWrite 0x2006 0xFF s0).ppu.t = 0x3F00
    ∧ (memWrite 0x2006 0x80 (memWrite 0x2006 0xFF s0)).ppu.v = 0x3F80 := by decide

/-- Q5, Q10. -/
theorem test_control_port :
    (memWrite 0x2000 0x03 s0).ppu.t = 0x0C00 ∧ (memWrite 0x2002 0x55 s0).ppu.ppuBus = 0x55 := by decide

/-- Q6: two data writes with the increment of 32. -/
theorem test_data_writes :
    let s := sPpu fun p => { p with ctrl := 0x04, v := 0x2000 }
    let t := memWrite 0x2007 0xBB (memWrite 0x2007 0xAA s)
    t.ppu.nt0.read 0 = 0xAA ∧ t.ppu.nt0.read 0x20 = 0xBB ∧ t.ppu.v = 0x2040 := by decide

/-- Q8: the address is 14 bits, `v` wraps at 15. -/
theorem test_data_write_wrap :
    let t := memWrite 0x2007 0x01 (sPpu fun p => { p with v := 0x7FFF })
    t.ppu.palette.read 0x1F = 0x01 ∧ t.ppu.v = 0 := by decide

/-- Q11: the read buffer. -/
theorem test_data_reads :
    let s := sPpu fun p => { p with nt1 := [(0x3FF, 0x77)], v := 0x2BFF }
    let r := memRead 0x2007 s
    r.1 = 0x00 ∧ (memRead 0x2007 r.2).1 = 0x77 ∧ (memRead 0x2007 r.2).2.ppu.v = 0x2C01 := by decide

/-- Q12, Q13, Q14: palette reads at once, the folding of 0x3F10, grayscale. -/
theorem test_palette :
    (memRead 0x2007 (sPpu fun p => { p with palette := [(0, 0x21)], v := 0x3F00 })).1 = 0x21
    ∧ (memWrite 0x2007 0x2C (sPpu fun p => { p with v := 0x3F10 })).ppu.palette.read 0 = 0x2C
    ∧ (memRead 0x2007 (sPpu fun p => { p with mask := 0x01, palette := [(5, 0x3D)], v := 0x3F05 })).1
      = 0x30 := by decide

/-- The name-table addresses of 95_test_vectors.md, vertical and horizontal. -/
theorem test_mirroring :
    let p : Ppu := { s0.ppu with nt0 := [(0, 0x10), (5, 0x15)], nt1 := [(0, 0x20), (5, 0x25)] }
    [0x2000, 0x2400, 0x2800, 0x2C00, 0x3000, 0x3C05].map (ppuRead (some cartRam) p)
        = [0x10, 0x10, 0x20, 0x20, 0x10, 0x25]
    ∧ [0x2000, 0x2400, 0x2800, 0x2C00, 0x3000, 0x3C05].map
        (ppuRead (some { cartRam with mirroring := .vertical }) p)
        = [0x10, 0x20, 0x10, 0x20, 0x10, 0x25] := by decide

/-- L3, L4, L6, L7, L8, L9, L10 with short bodies: the first failing check names the error. -/
theorem test_loader_rejects :
    let err := fun image => match loadCartridge image [] with | .ok _ => none | .error e => some e
    err [0x4E, 0x45, 0x53, 0x1A, 1, 1, 0x10, 0, 0, 0, 0, 0, 0, 0, 0, 0] = some .unsupportedMapper
    ∧ err [0x4E, 0x45, 0x53, 0x1A, 1, 1, 0, 0x10, 0, 0, 0, 0, 0, 0, 0, 0] = some .unsupportedMapper
    ∧ err [0x4E, 0x45, 0x53, 0x00, 1, 1, 0, 0, 0, 0, 0, 0, 0, 0, 0, 0] = some .badHeader
    ∧ err [0x4E, 0x45, 0x53, 0x1A, 1, 1, 0, 0, 0, 0, 0, 0, 0, 0, 0] = some .badHeader
    ∧ err [0x4E, 0x45, 0x53, 0x1A, 0, 1, 0, 0, 0, 0, 0, 0, 0, 0, 0, 0] = some .prgBankCount
    ∧ err [0x4E, 0x45, 0x53, 0x1A, 3, 1, 0, 0, 0, 0, 0, 0, 0, 0, 0, 0] = some .prgBankCount
    ∧ err [0x4E, 0x45, 0x53, 0x1A, 1, 1, 0, 0, 0, 0, 0, 0, 0, 0, 0, 0, 7] = some .truncated := by
  decide

/-- I1, I2: an IRQ is lost while I = 1, and taken with its pushes otherwise. -/
theorem test_irq :
    irq (sRegs 0 0 0 0xFD 0x24) = sRegs 0 0 0 0xFD 0x24 ∧
    let t := irq ((withMem [(0xFFFF, 0x90)] (sRegs 0 0 0 0xFD 0xE3)).setPc 0x8123)
    [0x01FD, 0x01FC, 0x01FB].map t.ram.read = [0x81, 0x23, 0xE3]
      ∧ (t.cpu.sp, t.cpu.p, t.cpu.pc, t.cpu.cycles) = (0xFA, 0xE7, 0x9000, 7) := by decide

/-- I3: an NMI clears B before the push. -/
theorem test_nmi :
    let t := nmi ((withMem [(0xFFFF, 0x90)] (sRegs 0 0 0 0xFD 0x34)).setPc 0x8123)
    t.ram.read 0x01FB = 0x24 ∧ (t.cpu.p, t.cpu.pc, t.cpu.cycles) = (0x24, 0x9000, 8) := by decide

/-- W3: the reset law's instance. -/
theorem test_reset :
    let t := cpuReset (withMem [(0xFFFC, 0x23), (0xFFFD, 0xC1)] (sRegs 1 2 3 0x10 0xFF))
    (t.cpu.a, t.cpu.x, t.cpu.y, t.cpu.sp, t.cpu.p) = (0x00, 0x00, 0x00, 0xFD, 0x20)
      ∧ (t.cpu.pc, t.cpu.cycles) = (0xC123, 8) := by decide

/-- `State.reset` is `cpu.reset()` of the power-on state with every draw 0 (R63, R400). -/
theorem test_state_reset : State.reset = cpuReset (powerOn Params.default PowerOn.zero) := by decide

/-- R351, R354 at (241, 1): vertical blank, the request; R342 at (-1, 1): cleared. -/
theorem test_vertical_blank :
    let p := ppuTick none { s0.ppu with scanline := 241, cycle := 1, ctrl := 0x80 }
    (p.verticalBlank, p.nmiRequest, p.cycle) = (true, true, 2)
    ∧ (ppuTick none { s0.ppu with cycle := 1, verticalBlank := true }).verticalBlank = false
    ∧ (let q := ppuTick none { s0.ppu with scanline := 260, cycle := 340 }
      (q.scanline, q.cycle, q.frameCompleted) = (-1, 0, true)) := by decide

/-- R352, R353: pixel 1 of palette 2 with grayscale off is entry 0x09, as in G1 at x = 0. -/
theorem test_pixel :
    (ppuTick (some cartRam)
      { s0.ppu with
        scanline := 0, cycle := 1, mask := 0x08
        bgShifterPatternLo := 0x8000, bgShifterAttribHi := 0x8000
        palette := [(0, 0x0F), (9, 0x19)] }).pixel = some { x := 0, y := 0, colour := 0x19 } := by decide

/-- The first row of the program of R133, fetched from RAM by one bus call: LDX #$0A, 2 cycles, one of
them counted. -/
theorem test_step_runs_the_word :
    (stateOf (step (State.reset.withFetchWord 16 0x0AA2))).map
      (fun t => (t.cpu.x, t.cpu.pc, t.cpu.cycles, t.cpu.opcode, t.sysClock))
      = some (0x0A, 0x0002, 1, 0xA2, 1) := by decide

/-- From reset the first bus call counts the reset's 8 cycles down (R400, R405). -/
theorem test_step_from_reset :
    (stateOf (step State.reset)).map (fun t => (t.cpu.cycles, t.sysClock, t.ppu.cycle)) = some (7, 1, 1) := by
  decide

/-! ### Witnesses: states and operands that meet each statement's hypotheses, at the ends of their ranges -/

/-- S0 with a cartridge and any `v`. -/
def sV (v : BitVec 15) (c : Cartridge) : State := (s1 c).setPpu { s0.ppu with v := v }

theorem cartRam_ok : cartRam.Ok :=
  { mapper := rfl, banks := .inl rfl, prgWf := rfl, prgSize := rfl, chrWf := rfl, chrSize := rfl }

theorem cartRom_ok : cartRom.Ok :=
  { mapper := rfl, banks := .inl rfl, prgWf := rfl, prgSize := rfl, chrWf := rfl, chrSize := rfl }

theorem s0_ppu_ok (v : BitVec 15) : Ppu.Ok { s0.ppu with v := v } where
  nt0Wf := rfl
  nt0Size := rfl
  nt1Wf := rfl
  nt1Size := rfl
  paletteWf := rfl
  paletteSize := rfl
  scanline := ⟨Int.le_refl (-1), (by decide : (-1 : Int) ≤ 260)⟩
  cycle := Nat.zero_le 340
  noSprites := ⟨rfl, rfl⟩
  attrib := Nat.zero_le 3
  pixel := fun _ h => nomatch h

theorem sV_ok (v : BitVec 15) (c : Cartridge) (hc : c.Ok) : (sV v c).Ok where
  params := rfl
  cycles := Nat.zero_le 10
  unused := by rw [show (sV v c).cpu.p = 0x20 from rfl]; decide
  ramWf := rfl
  ramSize := rfl
  memWf := rfl
  memSize := rfl
  ppu := s0_ppu_ok v
  noNmi := rfl
  cart := fun d h => by
    obtain rfl : c = d := by simpa [sV, s1] using h
    exact hc

theorem sV_rom (v : BitVec 15) : RomInstalled (sV v cartRam) ∧ RomInstalled (sV v cartRom) :=
  ⟨fun a _ _ => by simp [sV, s1, s0, State.reset, romByte, cartRam, Memory.read],
    fun a _ _ => by simp [sV, s1, s0, State.reset, romByte, cartRom, cartRam, Memory.read]⟩

/-- An image with one PRG bank and CHR RAM, as L11. -/
def image11 (body : List Byte) : List Byte :=
  [0x4E, 0x45, 0x53, 0x1A, 1, 0, 0, 0, 0, 0, 0, 0, 0, 0, 0, 0] ++ body

theorem image11_facts (body : List Byte) :
    (image11 body).length = 16 + body.length ∧ (image11 body).take 4 = [0x4E, 0x45, 0x53, 0x1A]
      ∧ mapperId (image11 body) = 0 ∧ imageByte (image11 body) 4 = 1
      ∧ imageByte (image11 body) 5 = 0 ∧ prgSize (image11 body) = 16384
      ∧ chrSize (image11 body) = 0 := by
  have h4 : imageByte (image11 body) 4 = 1 := rfl
  have h5 : imageByte (image11 body) 5 = 0 := rfl
  have h3 : mapperId (image11 body) = 0 := by
    rw [mapperId, show imageByte (image11 body) 7 = 0 from rfl,
      show imageByte (image11 body) 6 = 0 from rfl]
    decide
  exact ⟨by simp [image11]; omega, rfl, h3, h4, h5, by simp [prgSize, h4], by simp [chrSize, h5]⟩

/-- L11 is accepted. -/
theorem image11_loads (body : List Byte) (h : body.length = 16384) :
    ∃ c, loadCartridge (image11 body) [] = .ok c := by
  obtain ⟨h1, h2, h3, h4, h5, h6, h7⟩ := image11_facts body
  simp only [loadCartridge]
  rw [if_neg (by rw [h1, h2]; simp [magic]), if_neg (by simp [h3]), if_neg (by simp [h4]),
    if_neg (by omega)]
  exact ⟨_, rfl⟩

/-- The hypothesis of FirstOpcodeIsFetchedInBusCall24. -/
theorem witness_boot : ∃ image s, boot Params.default PowerOn.zero image [] = .next s := by
  obtain ⟨c, hc⟩ := image11_loads (List.replicate 16384 0xEA) List.length_replicate
  refine ⟨image11 (List.replicate 16384 0xEA),
    cpuReset (installCartridge c (powerOn Params.default PowerOn.zero)), ?_⟩
  simp only [boot, runHost, hostOp, insertCartridge]
  rw [hc]

theorem witness_well_formed :
    (Instr.lda (.abx 0xFFFF)).WellFormed ∧ (Instr.invalid 0xFF).WellFormed ∧ Instr.brk.WellFormed
      ∧ (Instr.ldx (.zpy 0xFF)).WellFormed ∧ (Instr.ldy (.zpx 0x00)).WellFormed
      ∧ (Instr.sta (.izy 0xFF)).WellFormed ∧ (Instr.stx (.zpy 0x00)).WellFormed
      ∧ (Instr.sty (.zpx 0xFF)).WellFormed ∧ (Instr.adc (.izx 0xFF)).WellFormed
      ∧ (Instr.sbc (.imm 0xFF)).WellFormed ∧ (Instr.and (.imm 0x00)).WellFormed
      ∧ (Instr.eor (.aby 0x2002)).WellFormed ∧ (Instr.ora (.abs 0x2007)).WellFormed
      ∧ (Instr.bit (.zp0 0x10)).WellFormed ∧ (Instr.cmp (.izy 0xFF)).WellFormed
      ∧ (Instr.cpx (.abs 0xFFFF)).WellFormed ∧ (Instr.cpy (.imm 0xFF)).WellFormed := by decide

theorem witness_EncodeOfDecodeIsTheBytes :
    decode [0x8D, 0xFF, 0xFF] = .ok (.sta (.abs 0xFFFF), []) ∧ Instr.sta (.abs 0xFFFF) ≠ .brk
      ∧ decode [0x00, 0xFF, 0xEA] = .ok (.brk, [0xEA]) := by decide

/-- A three-byte instruction that ends at 0x1FFF, the last address of RAM. -/
theorem witness_StepRunsTheDecodedInstruction :
    let s := withRam [(0x7FD, 0x8E), (0x7FE, 0x34), (0x7FF, 0x12)] (s0.setPc 0x1FFD)
    s.sysClock % 3 = 0 ∧ s.cpu.cycles = 0
      ∧ decode [peek s s.cpu.pc, peek s (s.cpu.pc + 1), peek s (s.cpu.pc + 2)]
          = .ok (.stx (.abs 0x1234), [])
      ∧ ∀ k < (Instr.stx (.abs 0x1234)).length,
          inPpuWindow (s.cpu.pc + BitVec.ofNat 16 k) = false := by decide

theorem witness_StepWithoutFetch :
    (advanceSysClock State.reset).sysClock % 3 ≠ 0
      ∧ State.reset.sysClock % 3 = 0 ∧ State.reset.cpu.cycles ≠ 0 := by decide

theorem witness_PcAdvancesByTheLength :
    (Instr.sta (.abs 0xFFFF)).WellFormed
      ∧ controlTransfers.contains (Instr.sta (.abs 0xFFFF)).op = false := by decide

/-- The hypotheses of the three frames over all instructions, together. -/
theorem witness_frames :
    (∃ t, exec .nop s0 = .next t) ∧ writesA .nop = false ∧ writesX .nop = false ∧ writesY .nop = false
      ∧ writesSp .nop = false ∧ writesC .nop = false ∧ writesZN .nop = false ∧ writesI .nop = false
      ∧ writesD .nop = false ∧ writesB .nop = false ∧ writesV .nop = false
      ∧ storesToMemory .nop = false :=
  ⟨⟨_, rfl⟩, by decide⟩

theorem witness_StoresPutTheRegister :
    (sV 0 cartRam).Ok ∧ (Instr.sta (.abs 0xFFFF)).WellFormed ∧ (Instr.stx (.abs 0x2007)).WellFormed
      ∧ (Instr.sty (.zp0 0xFF)).WellFormed :=
  ⟨sV_ok _ _ cartRam_ok, by decide⟩

theorem witness_IncDecRewriteTheOperand :
    (sV 0 cartRam).Ok ∧ (Instr.inc (.abx 0xFFFF)).WellFormed ∧ (Instr.dec (.zp0 0xFF)).WellFormed :=
  ⟨sV_ok _ _ cartRam_ok, by decide⟩

theorem witness_DecimalFlagHasNoEffect :
    (Instr.adc (.imm 0x01)).WellFormed ∧ (Instr.adc (.imm 0x01)).op ≠ .php
      ∧ (Instr.adc (.imm 0x01)).op ≠ .brk ∧ writesD (.adc (.imm 0x01)) = false
      ∧ Instr.sed.WellFormed ∧ Instr.sed.op ≠ .php ∧ Instr.sed.op ≠ .brk ∧ writesD .sed = true := by
  decide

theorem witness_MemoryShifts :
    (sV 0 cartRam).Ok ∧ Operand.abx 0xFFFF ≠ .imp ∧ (Instr.asl (.abx 0xFFFF)).WellFormed
      ∧ (Instr.lsr (.abx 0xFFFF)).WellFormed ∧ (Instr.rol (.abx 0xFFFF)).WellFormed
      ∧ (Instr.ror (.abx 0xFFFF)).WellFormed :=
  ⟨sV_ok _ _ cartRam_ok, by decide⟩

theorem witness_ShiftLaws :
    (Instr.asl .imp).WellFormed ∧ (Instr.asl (.abx 0xFFFF)).WellFormed := by decide

theorem witness_JmpGoesToItsTarget :
    inPpuWindow 0x1FFF = false ∧ inPpuWindow 0x2000 = true ∧ inPpuWindow 0x3FFF = true
      ∧ inPpuWindow 0x4000 = false := by decide

/-- A handler that kept the stack and stored elsewhere. -/
theorem witness_CallAndInterruptRoundTrips :
    let elsewhere := fun t : State => t.setRam (t.ram.write 0x0200 0x5A)
    let stackKept := fun (n : Nat) (t u : State) =>
      u.cpu.sp = t.cpu.sp
        ∧ ∀ k < n + 1, 1 ≤ k → stackByte u (BitVec.ofNat 8 k) = stackByte t (BitVec.ofNat 8 k)
    s0.ram.wf = true ∧ flag s0.cpu.p bitI = false
      ∧ (∃ t, exec (.jsr 0x9000) s0 = .next t ∧ stackKept 2 t (elsewhere t) ∧ (elsewhere t).ram ≠ t.ram)
      ∧ stackKept 3 (irq s0) (elsewhere (irq s0)) ∧ stackKept 3 (nmi s0) (elsewhere (nmi s0))
      ∧ ∃ t, exec .brk s0 = .next t ∧ stackKept 3 t (elsewhere t) :=
  ⟨rfl, rfl, ⟨_, rfl, by decide, by decide⟩, by decide, by decide, _, rfl, by decide⟩

/-- The first and the last byte of the INVALID range of the table. -/
theorem witness_NopAndInvalidDoNothing :
    (table 0x02).op = .invalid ∧ (table 0xFF).op = .invalid := by decide

theorem witness_interrupt_entries :
    flag (sRegs 0 0 0 0xFD 0x24).cpu.p bitI = true ∧ flag s0.cpu.p bitI = false
      ∧ s0.params = Params.default := by decide

theorem witness_NmiIsDeliveredInTheSameBusCall :
    (let s := sPpu fun p => { p with scanline := 241, cycle := 1, ctrl := 0x80 }
     s.ppu.nmiRequest = false ∧ s.ppu.scanline = 241 ∧ s.ppu.cycle = 1 ∧ s.ppu.enableNmi = true)
    ∧ (s0.ppu.nmiRequest = false
      ∧ ¬(s0.ppu.scanline = 241 ∧ s0.ppu.cycle = 1 ∧ s0.ppu.enableNmi = true)) := by decide

theorem witness_BusReads :
    inPpuWindow 0x1FFF = false ∧ (0x1FFF : Word).toNat < 0x2000 ∧ 0x2000 ≤ (0x2000 : Word).toNat
      ∧ (0x3FFF : Word).toNat < 0x4000 ∧ RomInstalled (sV 0 cartRam) ∧ 0x4000 ≤ (0x4000 : Word).toNat :=
  ⟨by decide, by decide, by decide, by decide, (sV_rom 0).1, by decide⟩

theorem witness_BusWritesChangeOneByte :
    (sV 0 cartRam).ram.wf = true ∧ (sV 0 cartRam).mem.wf = true ∧ RomInstalled (sV 0 cartRam) :=
  ⟨rfl, rfl, (sV_rom 0).1⟩

theorem witness_PushThenPop : (withRam [(0x100, 0x01)] s0).ram.wf = true := by decide

/-- One image for each clause: too short, no magic, a mapper, a bank count, truncated, accepted. -/
theorem witness_InsertCartridge :
    let byte := fun (m : List Byte) (i : Nat) => m.getD i 0
    let mapper := fun m => (byte m 7 &&& 0xF0) ||| (byte m 6 >>> 4)
    let prg := fun m => 16384 * (byte m 4).toNat
    let chr := fun m => 8192 * (byte m 5).toNat
    ([0x4E] : List Byte).length < 16 ∧ ([0, 0x45, 0x53, 0x1A] : List Byte).take 4 ≠ [0x4E, 0x45, 0x53, 0x1A]
    ∧ (let m : List Byte := [0x4E, 0x45, 0x53, 0x1A, 1, 1, 0x10, 0, 0, 0, 0, 0, 0, 0, 0, 0]
      16 ≤ m.length ∧ m.take 4 = [0x4E, 0x45, 0x53, 0x1A] ∧ mapper m ≠ 0)
    ∧ (let m : List Byte := [0x4E, 0x45, 0x53, 0x1A, 3, 1, 0, 0, 0, 0, 0, 0, 0, 0, 0, 0]
      mapper m = 0 ∧ byte m 4 ≠ 1 ∧ byte m 4 ≠ 2)
    ∧ (mapper (image11 []) = 0 ∧ byte (image11 []) 4 = 1
      ∧ (image11 []).length < 16 + prg (image11 []) + chr (image11 []))
    ∧ ∃ image : List Byte, image.take 4 = [0x4E, 0x45, 0x53, 0x1A] ∧ mapper image = 0
      ∧ byte image 4 = 1 ∧ 16 + prg image + chr image ≤ image.length ∧ chr image = 0 := by
  refine ⟨by decide, by decide, by decide, by decide, ?_, image11 (List.replicate 16384 0xEA), ?_⟩
  · obtain ⟨h1, -, h3, h4, -, h6, h7⟩ := image11_facts []
    exact ⟨h3, h4, by rw [h1]; exact Nat.lt_of_lt_of_le (by decide : 16 + 0 < 16 + 16384 + 0) (by rw [← h6, ← h7]; rfl)⟩
  · obtain ⟨h1, h2, h3, h4, -, h6, h7⟩ := image11_facts (List.replicate 16384 0xEA)
    exact ⟨h2, h3, h4, by rw [h1, List.length_replicate]; exact Nat.le_of_eq (by rw [← h6, ← Nat.add_zero (16 + _), ← h7]; rfl), h7⟩

/-- `v` at both ends of each range, with CHR RAM and with CHR ROM. -/
theorem witness_DataPortWrites :
    (∀ v, (sV v cartRam).Ok ∧ (sV v cartRom).Ok ∧ (sV v cartRam).ppu.v = v ∧ (sV v cartRom).ppu.v = v)
    ∧ (∀ v ∈ [(0x2000 : BitVec 15), 0x3EFF], 0x2000 ≤ v.toNat % 0x4000 ∧ v.toNat % 0x4000 < 0x3F00)
    ∧ (∀ v ∈ [(0x3F00 : BitVec 15), 0x3FFF, 0x7FFF], 0x3F00 ≤ v.toNat % 0x4000)
    ∧ (∀ v ∈ [(0x0000 : BitVec 15), 0x1FFF, 0x4000], v.toNat % 0x4000 < 0x2000)
    ∧ (∀ v, (sV v cartRam).cart = some cartRam ∧ (sV v cartRom).cart = some cartRom)
    ∧ cartRam.chrBanks = 0 ∧ cartRom.chrBanks ≠ 0 ∧ cartRam.mirroring = .horizontal
    ∧ (let c := { cartRam with mirroring := .vertical }; c.Ok ∧ (sV 0x2000 c).cart = some c) :=
  ⟨fun v => ⟨sV_ok v _ cartRam_ok, sV_ok v _ cartRom_ok, rfl, rfl⟩, by simp, by simp, by simp,
    fun _ => ⟨rfl, rfl⟩, by decide, by decide, rfl,
    { mapper := rfl, banks := .inl rfl, prgWf := rfl, prgSize := rfl, chrWf := rfl, chrSize := rfl }, rfl⟩

theorem witness_StatusPortReads : (sV 0x7FFF cartRom).Ok := sV_ok _ _ cartRom_ok

/-- Each range at its ends, and again in the address's other quarters. -/
theorem witness_MirroringAndFolding :
    (∀ a ∈ [(0x2000 : Word), 0x3EFF, 0x6000, 0xFEFF],
      0x2000 ≤ a.toNat % 0x4000 ∧ a.toNat % 0x4000 < 0x3F00)
    ∧ (∀ a ∈ [(0x3F00 : Word), 0x3FFF, 0x7FFF], 0x3F00 ≤ a.toNat % 0x4000)
    ∧ ∀ a ∈ [(0x0000 : Word), 0x1FFF, 0x4000, 0xDFFF], a.toNat % 0x4000 < 0x2000 := by simp

theorem witness_ControlScrollAndAddressWrites :
    s0.ppu.w = false ∧ (sPpu fun p => { p with w := true }).ppu.w = true := ⟨rfl, rfl⟩

theorem witness_VerticalBlankAndCounters :
    Ppu.Ok s0.ppu ∧ s0.ppu.cycle < 340
    ∧ ∃ p : Ppu, p.Ok ∧ p.cycle = 340 ∧ p.scanline = 260 :=
  ⟨s0_ppu_ok 0, by decide, { s0.ppu with cycle := 340, scanline := 260 },
    { nt0Wf := rfl, nt0Size := rfl, nt1Wf := rfl, nt1Size := rfl, paletteWf := rfl, paletteSize := rfl
      scanline := ⟨(by decide : (-1 : Int) ≤ 260), Int.le_refl 260⟩
      cycle := Nat.le_refl 340, noSprites := ⟨rfl, rfl⟩
      attrib := Nat.zero_le 3, pixel := fun _ h => nomatch h }, rfl, rfl⟩

theorem witness_FrameLaw :
    s0.ppu.scanline = -1 ∧ s0.ppu.cycle = 0 ∧ s0.ppu.frameCompleted = false
      ∧ s0.ppu.nmiRequest = false := by decide

/-- The first and the last pixel's positions, with the background off and on. -/
theorem witness_PixelOutput :
    (ppuTick none { s0.ppu with scanline := 0, cycle := 1 }).pixel = some { x := 0, y := 0, colour := 0 }
    ∧ s0.ppu.mask.getLsbD 3 = false
    ∧ ((ppuTick (some cartRam)
          { s0.ppu with scanline := 0, cycle := 1, mask := 0x08, palette := [(0, 0x0F)] }).pixel
        = some { x := 0, y := 0, colour := 0x0F } ∧ (0x08 : Byte).getLsbD 3 = true)
    ∧ (ppuTick (some cartRam) { s0.ppu with scanline := 239, cycle := 256 }).pixel
        = some { x := 255, y := 239, colour := 0 } := by decide

theorem witness_PpuClockFrame :
    s0.ppu.mask.getLsbD 3 = false ∧ s0.ppu.mask.getLsbD 4 = false := by decide

theorem witness_StepKeepsOk : (sV 0 cartRam).Ok ∧ ∃ t, step (sV 0 cartRam) = .next t :=
  ⟨sV_ok _ _ cartRam_ok, _, rfl⟩

theorem witness_StepKeepsTheRom :
    (∃ t, step (sV 0 cartRom) = .next t) ∧ (sV 0 cartRom).mem.wf = true ∧ RomInstalled (sV 0 cartRom)
      ∧ (sV 0 cartRom).cart = some cartRom ∧ cartRom.chrBanks ≠ 0 ∧ s0.cart = none :=
  ⟨⟨_, rfl⟩, rfl, (sV_rom 0).2, rfl, by decide, rfl⟩

/-- Boot with the image of L11 gives a state every run can start from; operations the host can make from a
well-formed state with its image installed. -/
theorem witness_ReachableStatesAreOk :
    (∃ s, Reachable s) ∧ (sV 0 cartRam).Ok ∧ RomInstalled (sV 0 cartRam)
      ∧ (∃ t, hostOp .clock (sV 0 cartRam) = .next t) ∧ (∃ t, hostOp .nmi (sV 0 cartRam) = .next t)
      ∧ ∃ image t, hostOp (.insertCartridge image []) (sV 0 cartRam) = .next t := by
  refine ⟨?_, sV_ok _ _ cartRam_ok, (sV_rom 0).1, ⟨_, rfl⟩, ⟨_, rfl⟩, ?_⟩
  · obtain ⟨image, s, hs⟩ := witness_boot
    exact ⟨s, Params.default, PowerOn.zero, image, [], s, [], rfl, hs, rfl⟩
  · obtain ⟨c, hc⟩ := image11_loads (List.replicate 16384 0xEA) List.length_replicate
    refine ⟨image11 (List.replicate 16384 0xEA), installCartridge c (sV 0 cartRam), ?_⟩
    simp only [hostOp, insertCartridge]
    rw [hc]

end Sys2Proof.Tests
end

namespace Sys2Proof.Machine

open Sys2Proof

/-!
PROOFS of the statements on 10_state.md. An instruction is its action in the frame of `runEntry`
(`exec_next`); what an action leaves of the CPU is said once per field. All that the CPU does to the rest of
the machine is a run of bus accesses (`Accesses`), so what every bus access keeps, every step and every host
operation keeps.
-/

/-! ### An instruction's operation, apart from its frame -/

/-- What an instruction does between the mode routine with its fetch() and the end of the frame
(40_pipeline_addressing.md R140). Tied to `exec` by `exec_eq_runEntry`. -/
def action : Instr → State → State
  | .lda _, v => (v.setA v.cpu.fetched).setP (setZN v.cpu.p v.cpu.fetched)
  | .ldx _, v => (v.setX v.cpu.fetched).setP (setZN v.cpu.p v.cpu.fetched)
  | .ldy _, v => (v.setY v.cpu.fetched).setP (setZN v.cpu.p v.cpu.fetched)
  | .sta _, v => memWrite v.cpu.addrAbs v.cpu.a v
  | .stx _, v => memWrite v.cpu.addrAbs v.cpu.x v
  | .sty _, v => memWrite v.cpu.addrAbs v.cpu.y v
  | .adc _, v => putAlu (adc v.cpu.p v.cpu.a v.cpu.fetched) v
  | .sbc _, v => putAlu (sbc v.cpu.p v.cpu.a v.cpu.fetched) v
  | .and _, v => (v.setA (v.cpu.a &&& v.cpu.fetched)).setP (setZN v.cpu.p (v.cpu.a &&& v.cpu.fetched))
  | .eor _, v => (v.setA (v.cpu.a ^^^ v.cpu.fetched)).setP (setZN v.cpu.p (v.cpu.a ^^^ v.cpu.fetched))
  | .ora _, v => (v.setA (v.cpu.a ||| v.cpu.fetched)).setP (setZN v.cpu.p (v.cpu.a ||| v.cpu.fetched))
  | .bit _, v => v.setP (bitStatus v.cpu.p v.cpu.a v.cpu.fetched)
  | .cmp _, v => v.setP (compareStatus v.cpu.p v.cpu.a v.cpu.fetched)
  | .cpx _, v => v.setP (compareStatus v.cpu.p v.cpu.x v.cpu.fetched)
  | .cpy _, v => v.setP (compareStatus v.cpu.p v.cpu.y v.cpu.fetched)
  | .inc _, v =>
    let w := memWrite v.cpu.addrAbs (v.cpu.fetched + 1) v
    w.setP (setZN w.cpu.p (v.cpu.fetched + 1))
  | .dec _, v =>
    let w := memWrite v.cpu.addrAbs (v.cpu.fetched - 1) v
    w.setP (setZN w.cpu.p (v.cpu.fetched - 1))
  | .inx, v => (v.setX (v.cpu.x + 1)).setP (setZN v.cpu.p (v.cpu.x + 1))
  | .iny, v => (v.setY (v.cpu.y + 1)).setP (setZN v.cpu.p (v.cpu.y + 1))
  | .dex, v => (v.setX (v.cpu.x - 1)).setP (setZN v.cpu.p (v.cpu.x - 1))
  | .dey, v => (v.setY (v.cpu.y - 1)).setP (setZN v.cpu.p (v.cpu.y - 1))
  | .asl o, v => finishShift o (asl v.cpu.p v.cpu.fetched) v
  | .lsr o, v => finishShift o (lsr v.cpu.p v.cpu.fetched) v
  | .rol o, v => finishShift o (rol v.cpu.p v.cpu.fetched) v
  | .ror o, v => finishShift o (ror v.cpu.p v.cpu.fetched) v
  | .bcc _, v => branch (!flag v.cpu.p bitC) v
  | .bcs _, v => branch (flag v.cpu.p bitC) v
  | .beq _, v => branch (flag v.cpu.p bitZ) v
  | .bne _, v => branch (!flag v.cpu.p bitZ) v
  | .bmi _, v => branch (flag v.cpu.p bitN) v
  | .bpl _, v => branch (!flag v.cpu.p bitN) v
  | .bvc _, v => branch (!flag v.cpu.p bitV) v
  | .bvs _, v => branch (flag v.cpu.p bitV) v
  | .jmp _, v => v.setPc v.cpu.addrAbs
  | .jsr _, v =>
    let w := pushWord (v.cpu.pc - 1) (v.setPc (v.cpu.pc - 1))
    w.setPc w.cpu.addrAbs
  | .rts, v => (popWord v).2.setPc ((popWord v).1 + 1)
  | .brk, v => takeInterrupt (pushedByInstruction v.cpu.p) (putBit v.cpu.p bitB false) irqVector v
  | .rti, v => returnFromInterrupt v
  | .pha, v => push v.cpu.a v
  | .php, v => ((push (pushedByInstruction v.cpu.p) v).setFlag bitB false).setFlag bitU false
  | .pla, v => ((pop v).2.setA (pop v).1).setP (setZN (pop v).2.cpu.p (pop v).1)
  | .plp, v => (pop v).2.setP (putBit (pop v).1 bitU true)
  | .clc, v => v.setFlag bitC false
  | .cld, v => v.setFlag bitD false
  | .cli, v => v.setFlag bitI false
  | .clv, v => v.setFlag bitV false
  | .sec, v => v.setFlag bitC true
  | .sed, v => v.setFlag bitD true
  | .sei, v => v.setFlag bitI true
  | .tax, v => (v.setX v.cpu.a).setP (setZN v.cpu.p v.cpu.a)
  | .tay, v => (v.setY v.cpu.a).setP (setZN v.cpu.p v.cpu.a)
  | .tsx, v => (v.setX v.cpu.sp).setP (setZN v.cpu.p v.cpu.sp)
  | .txa, v => (v.setA v.cpu.x).setP (setZN v.cpu.p v.cpu.x)
  | .txs, v => v.setSp v.cpu.x
  | .tya, v => (v.setA v.cpu.y).setP (setZN v.cpu.p v.cpu.y)
  | .nop, v => v
  | .invalid _, v => v

/-- fetch(), for the operations that read their operand through it (R141, R148). -/
def fetchIfReader (i : Instr) (u : State) : State :=
  if operandReaders.contains i.op then fetchOperand i.operand u else u

/-- Every instruction is its action, after its fetch(), in the frame of the CPU clock (R140). -/
theorem exec_eq_runEntry (i : Instr) (s : State) :
    exec i s
      = runEntry i (acceptsPageCross.contains i.op) (fun u => action i (fetchIfReader i u)) s := by
  cases i <;> rfl

end Sys2Proof.Machine

namespace Sys2Proof.Machine

open Sys2Proof

/-! ### What any run of CPU work can do: bus accesses and register writes -/

/-- `t` comes from `s` by bus reads, bus writes and changes of CPU registers, in some order: all that an
instruction, an interrupt or a reset can do to the machine (R11, R78). -/
inductive Accesses (s : State) : State → Prop
  | refl : Accesses s s
  | setCpu {t : State} (c : Cpu) : Accesses s t → Accesses s (t.withCpu c)
  | read {t : State} (a : Word) : Accesses s t → Accesses s (memRead a t).2
  | write {t : State} (a : Word) (d : Byte) : Accesses s t → Accesses s (memWrite a d t)

namespace Accesses

variable {s t u : State}

theorem trans (h : Accesses s t) (h' : Accesses t u) : Accesses s u := by
  induction h' with
  | refl => exact h
  | setCpu c _ ih => exact ih.setCpu c
  | read a _ ih => exact ih.read a
  | write a d _ ih => exact ih.write a d

theorem readPointer (l h : Word) (ht : Accesses s t) : Accesses s (readPointer l h t).2 :=
  (ht.read l).read h

theorem memRead16 (a : Word) (ht : Accesses s t) : Accesses s (memRead16 a t).2 :=
  ht.readPointer a (a + 1)

theorem push (v : Byte) (h : Accesses s t) : Accesses s (push v t) := (h.write _ v).setCpu _

theorem pop (h : Accesses s t) : Accesses s (pop t).2 := (h.setCpu _).read _

theorem pushWord (w : Word) (h : Accesses s t) : Accesses s (pushWord w t) := (h.push _).push _

theorem popWord (h : Accesses s t) : Accesses s (popWord t).2 := by
  rw [popWord_eq]; exact h.setCpu _

theorem takeInterrupt (pushed live : Byte) (vector : Word) (h : Accesses s t) :
    Accesses s (takeInterrupt pushed live vector t) :=
  ((((h.pushWord _).push _).setCpu _).memRead16 vector).setCpu _

theorem returnFromInterrupt (h : Accesses s t) : Accesses s (returnFromInterrupt t) := by
  rw [returnFromInterrupt_eq]; exact h.setCpu _

theorem fetchOperand (o : Operand) (h : Accesses s t) : Accesses s (fetchOperand o t) := by
  cases o with
  | imp => exact h
  | imm b => exact h.setCpu _
  | zp0 | zpx | zpy | rel | abs | abx | aby | ind | izx | izy => exact (h.read _).setCpu _

theorem writeBack (o : Operand) (r : Byte) (h : Accesses s t) : Accesses s (writeBack o r t) := by
  cases o with
  | imp => exact h.setCpu _
  | imm | zp0 | zpx | zpy | rel | abs | abx | aby | ind | izx | izy => exact h.write _ r

theorem branch (cond : Bool) (h : Accesses s t) : Accesses s (branch cond t) := by
  cases cond with
  | false => exact h
  | true => rw [branch_true]; exact h.setCpu _

theorem effective (o : Operand) (h : Accesses s t) : Accesses s (effective o t).state := by
  cases o with
  | ind w | izx z | izy z => exact h.readPointer _ _
  | imp | imm | zp0 | zpx | zpy | rel | abs | abx | aby => exact h

/-- What an instruction's action does to the machine. -/
theorem action (i : Instr) (h : Accesses s t) : Accesses s (action i t) := by
  cases i with
  | sta | stx | sty => exact h.write _ _
  | inc | dec => exact (h.write _ _).setCpu _
  | asl o | lsr o | rol o | ror o => exact (h.setCpu _).writeBack o _
  | bcc | bcs | beq | bne | bmi | bpl | bvc | bvs => exact h.branch _
  | jsr => exact ((h.setCpu _).pushWord _).setCpu _
  | rts => exact h.popWord.setCpu _
  | brk => exact h.takeInterrupt _ _ _
  | rti => exact h.returnFromInterrupt
  | pha => exact h.push _
  | php => exact ((h.push _).setCpu _).setCpu _
  | pla | plp => exact h.pop.setCpu _
  | nop | invalid => exact h
  | _ => exact h.setCpu _

end Accesses

end Sys2Proof.Machine

namespace Sys2Proof.Machine

open Sys2Proof

/-! ### The CPU after a stack operation, an interrupt, a branch -/

variable (s : State)

@[simp] theorem memRead16_cpu (a : Word) : (memRead16 a s).2.cpu = s.cpu := by
  simp [memRead16, readPointer]

@[simp] theorem push_cpu (b : Byte) : (push b s).cpu = { s.cpu with sp := s.cpu.sp - 1 } := by
  rw [push_eq]; rfl

@[simp] theorem pushWord_cpu (w : Word) : (pushWord w s).cpu = { s.cpu with sp := s.cpu.sp - 2 } := by
  rw [pushWord_eq]; rfl

@[simp] theorem pop_cpu : (pop s).2.cpu = { s.cpu with sp := s.cpu.sp + 1 } := by
  rw [pop_eq]; rfl

@[simp] theorem popWord_cpu : (popWord s).2.cpu = { s.cpu with sp := s.cpu.sp + 2 } := by
  rw [popWord_eq]; rfl

/-- Taking an interrupt changes SP, P and PC (60_exceptions.md R302, R303). -/
@[simp] theorem takeInterrupt_cpu (pushed live : Byte) (vector : Word) :
    (takeInterrupt pushed live vector s).cpu
      = { s.cpu with
          sp := s.cpu.sp - 3, p := putBit live bitI true
          pc := (memRead16 vector (interrupted pushed live s)).1 } := by
  rw [takeInterrupt_eq, State.setPc, memRead16_cpu]; rfl

/-- Returning from an interrupt changes SP, P and PC (44_control_transfer.md R243). -/
@[simp] theorem returnFromInterrupt_cpu :
    (returnFromInterrupt s).cpu
      = { s.cpu with
          p := putBit (putBit (stackByte s 1) bitB false) bitU false
          sp := s.cpu.sp + 3
          pc := word16 (stackByte s 3) (stackByte s 2) } := by
  rw [returnFromInterrupt_eq]

/-- A branch changes PC, `addr_abs` and `cycles`, and only when it is taken (R230). -/
@[simp] theorem branch_cpu (cond : Bool) :
    (branch cond s).cpu
      = { s.cpu with
          pc := if cond then s.cpu.pc + s.cpu.addrRel else s.cpu.pc
          addrAbs := if cond then s.cpu.pc + s.cpu.addrRel else s.cpu.addrAbs
          cycles :=
            if cond then
              s.cpu.cycles + 1 + (otherPage s.cpu.pc (s.cpu.pc + s.cpu.addrRel)).toNat
            else s.cpu.cycles } := by
  cases cond with
  | false => rfl
  | true => rw [branch_true]; rfl

/-- In a memory form the result of a shift does not go to A (43_shift_rotate.md). -/
theorem writeBack_a {o : Operand} (h : o.mode ≠ .imp) (r : Byte) :
    (writeBack o r s).cpu.a = s.cpu.a := by
  rw [writeBack_of_ne_imp (by rintro rfl; exact h rfl), memWrite_cpu]

/-! ### What an action leaves of the CPU -/

/-- No action changes `opcode`, `addr_rel` or `fetched` (R37 to R39). -/
theorem action_latches (i : Instr) (v : State) :
    (action i v).cpu.opcode = v.cpu.opcode ∧ (action i v).cpu.addrRel = v.cpu.addrRel
      ∧ (action i v).cpu.fetched = v.cpu.fetched := by
  cases i <;> simp [action, putAlu, finishShift]

/-- Only a taken branch changes `addr_abs` (R36, R230). -/
theorem action_addrAbs (i : Instr) (v : State) :
    (action i v).cpu.addrAbs
      = if branchTaken i v.cpu.p then v.cpu.pc + v.cpu.addrRel else v.cpu.addrAbs := by
  cases i with
  | bcc | bcs | beq | bne | bmi | bpl | bvc | bvs => rw [action, branch_cpu]; rfl
  | _ => simp [action, putAlu, finishShift, branchTaken, Instr.op]

/-- Only a taken branch adds to the cycles, 1 or 2 (R230). -/
theorem action_cycles_le (i : Instr) (v : State) : (action i v).cpu.cycles ≤ v.cpu.cycles + 2 := by
  have hbranch (cond : Bool) : (branch cond v).cpu.cycles ≤ v.cpu.cycles + 2 := by
    rw [branch_cpu]
    have := (otherPage v.cpu.pc (v.cpu.pc + v.cpu.addrRel)).toNat_le
    dsimp only
    split <;> omega
  cases i with
  | bcc | bcs | beq | bne | bmi | bpl | bvc | bvs => exact hbranch _
  | _ => simp [action, putAlu, finishShift]

/-- The registers an action leaves: all but those the lists of 10_state.md give it (R20 to R23). -/
theorem action_registers (i : Instr) (v : State) :
    (writesA i = false → (action i v).cpu.a = v.cpu.a) ∧
    (writesX i = false → (action i v).cpu.x = v.cpu.x) ∧
    (writesY i = false → (action i v).cpu.y = v.cpu.y) ∧
    (writesSp i = false → (action i v).cpu.sp = v.cpu.sp) := by
  cases i with
  | asl o | lsr o | rol o | ror o =>
    simp +contextual [action, finishShift, writeBack_a, writesA, isAccumulatorShift, Instr.op, Instr.mode,
      Instr.operand]
  | _ =>
    simp [action, putAlu, writesA, writesX, writesY, writesSp, isAccumulatorShift, Instr.op]

/-- The flags an action leaves: all but those the lists of 10_state.md give it (R27 to R31, R33). -/
theorem action_flags (i : Instr) (v : State) :
    (writesC i = false → flag (action i v).cpu.p bitC = flag v.cpu.p bitC) ∧
    (writesZN i = false → flag (action i v).cpu.p bitZ = flag v.cpu.p bitZ
      ∧ flag (action i v).cpu.p bitN = flag v.cpu.p bitN) ∧
    (writesI i = false → flag (action i v).cpu.p bitI = flag v.cpu.p bitI) ∧
    (writesD i = false → flag (action i v).cpu.p bitD = flag v.cpu.p bitD) ∧
    (writesB i = false → flag (action i v).cpu.p bitB = flag v.cpu.p bitB) ∧
    (writesV i = false → flag (action i v).cpu.p bitV = flag v.cpu.p bitV) := by
  obtain ⟨n, o, u, b, d, j, z, c, hp⟩ := exists_packP v.cpu.p
  cases i with
  | plp | rti => simp [writesC, writesZN, writesI, writesD, writesB, writesV, Instr.op]
  | adc | sbc => simp [action, putAlu, adc, sbc, hp, writesC, writesZN, writesV, Instr.op]
  | bit => simp [action, bitStatus, hp, writesZN, writesV, Instr.op]
  | cmp | cpx | cpy => simp [action, compareStatus, setZN, hp, writesC, writesZN, Instr.op]
  | asl | lsr | rol | ror =>
    simp [action, finishShift, asl, lsr, rol, ror, setZN, hp, writesC, writesZN, Instr.op]
  | php | brk | clc | sec | cld | sed | cli | sei | clv =>
    simp [action, hp, writesC, writesI, writesD, writesB, writesV, Instr.op]
  | _ => simp [action, setZN, hp, writesZN, Instr.op]

end Sys2Proof.Machine

namespace Sys2Proof.Machine

open Sys2Proof

/-! ### A whole instruction, from its action -/

/-- Only instructions of the machine have an opcode byte (R128, R180 to R278). -/
theorem wellFormed_of_opcodeOf {i : Instr} {op : Byte} (h : opcodeOf i = some op) : i.WellFormed := by
  cases i with
  | invalid b =>
    by_cases hb : isInvalidOpcode b = true
    · exact hb
    · rw [opcodeOf, if_neg hb] at h; cases h
  | lda o | ldx o | ldy o | sta o | stx o | sty o | adc o | sbc o | and o | eor o | ora o | bit o | cmp o
  | cpx o | cpy o | inc o | dec o | asl o | lsr o | rol o | ror o | jmp o =>
    cases o <;> first
      | rfl
      | exact nomatch h
  | _ => rfl

/-- What `fetched` holds after an instruction (R38, R141, R149): A in IMP mode, the operand byte of an
operation that reads it, else what it held. -/
def fetchedByte (i : Instr) (s : State) : Byte :=
  if i.mode = .imp then s.cpu.a
  else if operandReaders.contains i.op then operandByte i.operand s
  else s.cpu.fetched

theorem latchedFetched_eq (o : Operand) (s : State) :
    latchedFetched o s = if o.mode = .imp then s.cpu.a else s.cpu.fetched := by
  cases o <;> rfl

theorem operandByte_of_imp {o : Operand} (h : o.mode = .imp) (s : State) :
    operandByte o s = s.cpu.a := by
  cases o <;> first
    | rfl
    | exact nomatch h

/-- The CPU when the action of a well-formed instruction begins. -/
theorem fetchIfReader_cpu {i : Instr} (hi : i.WellFormed) (op : Byte) (s : State) :
    (fetchIfReader i (addrMode i.operand (beginInstr op s))).cpu
      = { resolvedCpu op i.operand s with fetched := fetchedByte i s } := by
  rw [fetchIfReader, fetchedByte]
  by_cases hr : operandReaders.contains i.op = true
  · obtain ⟨hind, hrel⟩ := mode_of_reader hi hr
    have himp : (if i.mode = .imp then s.cpu.a else operandByte i.operand s)
        = operandByte i.operand s := by
      split
      · exact (operandByte_of_imp ‹_› s).symm
      · rfl
    rw [if_pos hr, if_pos hr, fetchOperand_addrMode op s hind hrel, himp]
  · rw [if_neg hr, if_neg hr, addrMode_beginInstr]
    exact congrArg (fun b => { resolvedCpu op i.operand s with fetched := b })
      (latchedFetched_eq i.operand s)

/-- Until its action begins an instruction only reads, and sets registers. -/
theorem accesses_fetchIfReader (i : Instr) (op : Byte) (s : State) :
    Accesses s (fetchIfReader i (addrMode i.operand (beginInstr op s))) := by
  have h : Accesses s (addrMode i.operand (beginInstr op s)) := by
    rw [addrMode_beginInstr]; exact (Accesses.refl.effective i.operand).setCpu _
  rw [fetchIfReader]
  split
  · exact h.fetchOperand i.operand
  · exact h

/-- What a well-formed instruction does: from a state `v` that its own reads lead to, its action, in its
frame (R140). -/
theorem exec_of_wellFormed {i : Instr} (hi : i.WellFormed) (s : State) :
    ∃ op v, opcodeOf i = some op ∧ Accesses s v
      ∧ v.cpu = { resolvedCpu op i.operand s with fetched := fetchedByte i s }
      ∧ exec i s
          = .next (endInstr (crossesPage i.operand s && acceptsPageCross.contains i.op) (action i v)) := by
  obtain ⟨op, hop, -, -, hrun⟩ :=
    runEntry_next hi (acceptsPageCross.contains i.op) (fun u => action i (fetchIfReader i u)) s
  exact ⟨op, _, hop, accesses_fetchIfReader i op s, fetchIfReader_cpu hi op s,
    (exec_eq_runEntry i s).trans hrun⟩

/-- Only an instruction of the machine runs. -/
theorem wellFormed_of_exec {i : Instr} {s t : State} (h : exec i s = .next t) : i.WellFormed := by
  cases hop : opcodeOf i with
  | none => rw [exec_eq_runEntry, runEntry_none hop] at h; cases h
  | some op => exact wellFormed_of_opcodeOf hop

/-- What an instruction that runs has done. -/
theorem exec_next {i : Instr} {s t : State} (h : exec i s = .next t) :
    ∃ op v extra, opcodeOf i = some op ∧ Accesses s v
      ∧ v.cpu = { resolvedCpu op i.operand s with fetched := fetchedByte i s }
      ∧ t = endInstr extra (action i v) := by
  obtain ⟨op, v, hop, hacc, hv, ht⟩ := exec_of_wellFormed (wellFormed_of_exec h) s
  exact ⟨op, v, _, hop, hacc, hv, Host.Outcome.next.inj (h.symm.trans ht)⟩

/-! ### The registers and the flags -/

/-- Settles O10: the frame writes none of the four registers, and an action only those it is listed
under (`action_registers`). -/
theorem registersChangeOnlyInTheirWriters : Obligations.RegistersChangeOnlyInTheirWriters := by
  intro i s t h
  obtain ⟨op, v, extra, -, -, hv, rfl⟩ := exec_next h
  have hr := action_registers i v
  rw [hv] at hr
  exact hr

/-- Forcing U leaves the other flags (R143). -/
theorem flag_forced (p : Byte) {k : Nat} (hk : k ≠ bitU) : flag (putBit p bitU true) k = flag p k :=
  flag_putBit_ne p bitU k true (by decide) hk

/-- Settles O11: the frame writes U alone (`flag_forced`), and an action only the flags it is listed
under (`action_flags`). -/
theorem flagsChangeOnlyInTheirWriters : Obligations.FlagsChangeOnlyInTheirWriters := by
  intro i s t h
  obtain ⟨op, v, extra, -, -, hv, rfl⟩ := exec_next h
  have hf := action_flags i v
  have hp : v.cpu.p = putBit s.cpu.p bitU true := by rw [hv]; rfl
  simpa [endInstr_eq, endedCpu, hp, flag_forced] using hf

end Sys2Proof.Machine

namespace Sys2Proof.Machine

open Sys2Proof

/-! ### Effective addresses as numbers -/

/-- An address in the zero page is its byte. -/
theorem zext16_eq_ofNat (b : Byte) : zext16 b = BitVec.ofNat 16 b.toNat := by
  apply BitVec.eq_of_toNat_eq
  rw [toNat_zext16, BitVec.toNat_ofNat]
  omega

theorem toNat_loByte (w : Word) : (loByte w).toNat = w.toNat % 256 := by
  simp [loByte]

/-- The mask of the page-wrap bug clears the low byte. -/
theorem and_FF00_eq (w : Word) : w &&& 0xFF00 = word16 (hiByte w) 0 := by
  apply BitVec.eq_of_getLsbD_eq
  intro i hi
  rw [getLsbD_word16]
  interval_cases i <;> simp [hiByte]

theorem toNat_hiByte (w : Word) : (hiByte w).toNat = w.toNat / 256 := by
  have h := toNat_word16 (hiByte w) (loByte w)
  rw [word16_hiByte_loByte, toNat_loByte] at h
  omega

/-- The second pointer byte of IND as a number, with the page-wrap bug (R159). -/
theorem toNat_indHighAddr (w : Word) :
    (indHighAddr w).toNat = if w.toNat % 256 = 255 then w.toNat - 255 else w.toNat + 1 := by
  have hw := w.isLt
  have hlo : loByte w = 0xFF ↔ w.toNat % 256 = 255 := by
    rw [← BitVec.toNat_inj, toNat_loByte]; rfl
  by_cases h : w.toNat % 256 = 255
  · rw [indHighAddr, if_pos (hlo.mpr h), if_pos h, and_FF00_eq, toNat_word16, toNat_hiByte]
    show 256 * (w.toNat / 256) + 0 = w.toNat - 255
    omega
  · rw [indHighAddr, if_neg (mt hlo.mp h), if_neg h, BitVec.toNat_add]
    show (w.toNat + 1) % 65536 = w.toNat + 1
    omega

/-- A read changes no byte outside the PPU's window. -/
theorem peek_memRead_of_not_window (a : Word) {b : Word} (hb : inPpuWindow b = false) (s : State) :
    peek (memRead a s).2 b = peek s b :=
  peek_congr hb (memRead_ram a s) (memRead_mem a s)

/-- A port other than 2 and 7 peeks as 0 (R330). -/
theorem peek_of_quiet_port {a : Word} (h : inPpuWindow a = true) (h2 : a.toNat % 8 ≠ 2)
    (h7 : a.toNat % 8 ≠ 7) (s : State) : peek s a = 0 := by
  rw [← memRead_fst, memRead_of_quiet_port h h2 h7]

/-- The first pointer read of IND does not change what the second returns: a port that a read changes, 2 or
7, is followed by a quiet one. -/
theorem peek_indHighAddr_memRead (w : Word) (s : State) :
    peek (memRead w s).2 (indHighAddr w) = peek s (indHighAddr w) := by
  cases hhi : inPpuWindow (indHighAddr w) with
  | false => exact peek_memRead_of_not_window w hhi s
  | true =>
    by_cases hport : w.toNat % 8 = 2 ∨ w.toNat % 8 = 7
    · have hn := toNat_indHighAddr w
      have h2 : (indHighAddr w).toNat % 8 ≠ 2 := by split at hn <;> omega
      have h7 : (indHighAddr w).toNat % 8 ≠ 7 := by split at hn <;> omega
      rw [peek_of_quiet_port hhi h2 h7, peek_of_quiet_port hhi h2 h7]
    · cases hw : inPpuWindow w with
      | false => rw [memRead_snd_of_not_window hw]
      | true => rw [memRead_of_quiet_port hw (fun h => hport (.inl h)) (fun h => hport (.inr h))]

/-- IND (R159): the pointer as a number. -/
theorem toNat_effAddr_ind (w : Word) (s : State) :
    (effAddr (.ind w) s).toNat
      = 256 * (peek s (BitVec.ofNat 16
          (if w.toNat % 256 = 255 then w.toNat - 255 else w.toNat + 1))).toNat
        + (peek s (BitVec.ofNat 16 w.toNat)).toNat := by
  rw [← toNat_indHighAddr, BitVec.ofNat_toNat, BitVec.ofNat_toNat, BitVec.setWidth_eq,
    BitVec.setWidth_eq, ← toNat_word16, ← peek_indHighAddr_memRead, ← memRead_fst w,
    ← memRead_fst (indHighAddr w)]
  rfl

/-- A 16-bit pointer in the zero page, read at a byte and its successor modulo 256 (R160, R161). -/
theorem toNat_zeroPagePointer (z : Byte) (s : State) :
    (zeroPagePointer z s).toNat
      = 256 * (peek s (BitVec.ofNat 16 ((z.toNat + 1) % 256))).toNat
        + (peek s (BitVec.ofNat 16 z.toNat)).toNat := by
  rw [zeroPagePointer, toNat_word16, zext16_eq_ofNat, zext16_eq_ofNat, BitVec.toNat_add]
  rfl

theorem effAddr_izx (z : Byte) (s : State) : effAddr (.izx z) s = zeroPagePointer (z + s.cpu.x) s := by
  simp only [effAddr, effective, zeroPagePointer,
    readPointer_of_not_window (inPpuWindow_zext16 _) (inPpuWindow_zext16 _)]

theorem effAddr_izy (z : Byte) (s : State) :
    effAddr (.izy z) s = zeroPagePointer z s + zext16 s.cpu.y := by
  simp only [effAddr, effective, zeroPagePointer,
    readPointer_of_not_window (inPpuWindow_zext16 _) (inPpuWindow_zext16 _)]

/-! ### The latches -/

/-- An operand form that is no offset belongs to no branch. -/
theorem branchTaken_of_not_rel {i : Instr} (h : i.operand.mode ≠ .rel) (p : Byte) :
    branchTaken i p = false := by
  cases i with
  | bcc | bcs | beq | bne | bmi | bpl | bvc | bvs => exact absurd rfl h
  | _ => rfl

/-- A branch tests a flag other than U. -/
theorem branchTaken_forced (i : Instr) (p : Byte) :
    branchTaken i (putBit p bitU true) = branchTaken i p := by
  have hf (k : Nat) (hk : k ≠ bitU) := flag_forced p hk
  simp only [branchTaken, hf bitC (by decide), hf bitZ (by decide), hf bitN (by decide),
    hf bitV (by decide)]

/-- `addr_abs` after the action of an instruction: the branch's target, or what the mode left (R36, R149,
R230). -/
theorem addrAbs_of_started {i : Instr} {op b : Byte} {s v : State}
    (hv : v.cpu = { resolvedCpu op i.operand s with fetched := b }) :
    (action i v).cpu.addrAbs
      = match i.operand with
        | .imp => s.cpu.addrAbs
        | .rel r => if branchTaken i s.cpu.p then branchTarget r s else s.cpu.addrAbs
        | .imm _ => s.cpu.pc + 1
        | o => effAddr o s := by
  rw [action_addrAbs, hv]
  simp only [resolvedCpu, branchTaken_forced]
  cases ho : i.operand with
  | rel r =>
    have htarget : s.cpu.pc + 1 + 1 + sext16 r = branchTarget r s := by
      rw [branchTarget, BitVec.add_assoc s.cpu.pc]; rfl
    exact congrArg (fun w => if branchTaken i s.cpu.p then w else s.cpu.addrAbs) htarget
  | _ => rw [branchTaken_of_not_rel (by simp [ho, Operand.mode])]; rfl

theorem latchedRel_eq (o : Operand) (s : State) :
    latchedRel o s = match o with | .rel r => sext16 r | _ => s.cpu.addrRel := by
  cases o <;> rfl

/-- Settles O9: the addresses by the operand forms; the latches as the mode and fetch() leave them
(`exec_of_wellFormed`), `addr_abs` moved by a taken branch alone. -/
theorem latchesAfterAnInstruction : Obligations.LatchesAfterAnInstruction := by
  refine ⟨fun o s => ?_, fun i s hi => ?_⟩
  · cases o with
    | imp | imm _ | rel _ | abs _ => rfl
    | zp0 | zpx | zpy | abx | aby => simp only [effAddr, effective, toNat_zext16, BitVec.toNat_add]
    | ind w => exact toNat_effAddr_ind w s
    | izx z =>
      simp only [effAddr_izx, toNat_zeroPagePointer, BitVec.toNat_add, Nat.mod_add_mod]
    | izy z =>
      simp only [effAddr_izy, toNat_zeroPagePointer, BitVec.toNat_add, toNat_zext16]
  · obtain ⟨op, v, hop, -, hv, ht⟩ := exec_of_wellFormed hi s
    obtain ⟨hopcode, hrel, hfetched⟩ := action_latches i v
    refine ⟨_, ht, ?_, addrAbs_of_started hv, ?_, ?_⟩
    · exact (congrArg some (hopcode.trans (congrArg Cpu.opcode hv))).trans hop.symm
    · exact (hrel.trans (congrArg Cpu.addrRel hv)).trans (latchedRel_eq _ s)
    · exact hfetched.trans (congrArg Cpu.fetched hv)

end Sys2Proof.Machine

namespace Sys2Proof.Machine

open Sys2Proof

/-! ### The PPU's part of the invariant -/

/-- The fields `Ppu.Ok` speaks of. -/
def Ppu.invariantPart (p : Ppu) :
    Memory × Memory × Memory × Int × Nat × Bool × Bool × Byte × Option Pixel :=
  (p.nt0, p.nt1, p.palette, p.scanline, p.cycle, p.spriteOverflow, p.spriteZeroHit,
    p.bgNextTileAttrib, p.pixel)

theorem Ppu.Ok.congr {p q : Ppu} (h : p.Ok) (e : q.invariantPart = p.invariantPart) : q.Ok := by
  simp only [Ppu.invariantPart, Prod.mk.injEq] at e
  obtain ⟨hnt0, hnt1, hpal, hline, hcyc, hov, hzero, hattr, hpix⟩ := e
  constructor <;> simp only [hnt0, hnt1, hpal, hline, hcyc, hov, hzero, hattr, hpix]
  exacts [h.nt0Wf, h.nt0Size, h.nt1Wf, h.nt1Size, h.paletteWf, h.paletteSize, h.scanline, h.cycle,
    h.noSprites, h.attrib, h.pixel]

/-! ### One PPU clock keeps it -/

section Tick

variable {p : Ppu} (cart : Option Cartridge)

theorem invariantPart_ite {q : Ppu} (c : Prop) [Decidable c] (h : q.invariantPart = p.invariantPart) :
    (if c then q else p).invariantPart = p.invariantPart := by
  split
  · exact h
  · rfl

theorem invariantPart_updateShifters : (updateShifters p).invariantPart = p.invariantPart := by
  unfold updateShifters; split <;> rfl

theorem invariantPart_incrementScrollX : (incrementScrollX p).invariantPart = p.invariantPart := by
  unfold incrementScrollX; split <;> rfl

theorem invariantPart_incrementScrollY : (incrementScrollY p).invariantPart = p.invariantPart := by
  unfold incrementScrollY; split <;> rfl

theorem invariantPart_transferAddressX : (transferAddressX p).invariantPart = p.invariantPart := by
  unfold transferAddressX; split <;> rfl

theorem invariantPart_transferAddressY : (transferAddressY p).invariantPart = p.invariantPart := by
  unfold transferAddressY; split <;> rfl

/-- A fetched palette number has two bits (60_exceptions.md R347). -/
theorem Ppu.Ok.fetchAttribute (h : p.Ok) : (fetchAttribute cart p).Ok :=
  { h with
    attrib := by
      simp only [Machine.fetchAttribute, BitVec.toNat_and]
      exact Nat.and_le_right }

theorem Ppu.Ok.fetchPhase (h : p.Ok) (phase : Nat) : (fetchPhase cart phase p).Ok := by
  unfold Machine.fetchPhase
  split_ifs
  · exact h.congr rfl
  · exact h.fetchAttribute cart
  · exact h.congr rfl
  · exact h.congr rfl
  · exact h.congr invariantPart_incrementScrollX
  · exact h

theorem invariantPart_endOfLineEvents (scanline : Int) (cycle : Nat) :
    (endOfLineEvents cart scanline cycle p).invariantPart = p.invariantPart := by
  have htile (q : Ppu) : (fetchTileId cart q).invariantPart = q.invariantPart := rfl
  have hload (q : Ppu) : (loadBackgroundShifters q).invariantPart = q.invariantPart := rfl
  simp only [endOfLineEvents, apply_ite Ppu.invariantPart, htile, hload, ite_self,
    invariantPart_incrementScrollY, invariantPart_transferAddressX, invariantPart_transferAddressY]

theorem Ppu.Ok.renderLine (h : p.Ok) (scanline : Int) (cycle : Nat) :
    (renderLine cart scanline cycle p).Ok := by
  unfold Machine.renderLine
  refine Ppu.Ok.congr ?_ (invariantPart_endOfLineEvents cart scanline cycle)
  have hclear : (if scanline = -1 ∧ cycle = 1 then vblankClear p else p).Ok :=
    h.congr (invariantPart_ite _ rfl)
  split
  · exact (hclear.congr invariantPart_updateShifters).fetchPhase cart _
  · exact hclear

/-- A pixel handed over is on the screen (R353). -/
theorem Ppu.Ok.emitPixel (h : p.Ok) (scanline : Int) (cycle : Nat) :
    (emitPixel cart scanline cycle p).Ok :=
  { h with
    pixel := by
      intro q hq
      simp only [Machine.emitPixel] at hq
      split at hq
      · obtain rfl := Option.some.inj hq
        dsimp only
        omega
      · cases hq }

/-- The counters stay in range (R354). -/
theorem Ppu.Ok.advanceCounters (h : p.Ok) : (advanceCounters p).Ok := by
  have hline := h.scanline
  unfold Machine.advanceCounters
  split_ifs with hcycle hlast
  · exact { h with scanline := by simp, cycle := by simp }
  · exact { h with scanline := by dsimp only; omega, cycle := by simp }
  · exact { h with cycle := by dsimp only; omega }

theorem Ppu.Ok.tick (h : p.Ok) : (ppuTick cart p).Ok := by
  unfold ppuTick
  refine ((?_ : Ppu.Ok _).emitPixel cart p.scanline p.cycle).advanceCounters
  have hline : (if -1 ≤ p.scanline ∧ p.scanline ≤ 239 then
      Machine.renderLine cart p.scanline p.cycle p else p).Ok := by
    split
    · exact h.renderLine cart p.scanline p.cycle
    · exact h
  exact hline.congr (invariantPart_ite _ rfl)

end Tick

/-! ### The PPU's ports keep it -/

section Ports

variable (s : State)

theorem ppuRegRead_keeps (i : Nat) (ro : Bool) :
    (ppuRegRead i ro s).2.ppu.invariantPart = s.ppu.invariantPart
      ∧ (ppuRegRead i ro s).2.ppu.nmiRequest = s.ppu.nmiRequest := by
  simp only [ppuRegRead, statusRead, dataRead]
  split_ifs <;> exact ⟨rfl, rfl⟩

theorem memRead_ppu_keeps (a : Word) :
    (memRead a s).2.ppu.invariantPart = s.ppu.invariantPart
      ∧ (memRead a s).2.ppu.nmiRequest = s.ppu.nmiRequest := by
  simp only [memRead, busRead]
  split_ifs
  · exact ⟨rfl, rfl⟩
  · exact ppuRegRead_keeps s _ _
  · exact ⟨rfl, rfl⟩

theorem palIndex_lt (a : Nat) : palIndex a < 32 := by
  rw [palIndex_eq]; split <;> omega

variable {s}

/-- A PPU write goes to an index of the memory it addresses (20_memory.md R104). -/
theorem Ppu.Ok.ppuWrite (h : s.ppu.Ok) (a : Word) (d : Byte) : (ppuWrite a d s).ppu.Ok := by
  have hnt (x : Nat) : x &&& 0x03FF < 1024 := Nat.lt_succ_of_le Nat.and_le_right
  unfold Machine.ppuWrite Ppu.ntWrite
  dsimp only
  split_ifs
  · exact h
  · exact { h with
      nt0Wf := Memory.wf_write _ _ h.nt0Wf
      nt0Size := Memory.below_write _ (hnt _) h.nt0Size }
  · exact { h with
      nt1Wf := Memory.wf_write _ _ h.nt1Wf
      nt1Size := Memory.below_write _ (hnt _) h.nt1Size }
  · exact { h with
      paletteWf := Memory.wf_write _ _ h.paletteWf
      paletteSize := Memory.below_write _ (palIndex_lt _) h.paletteSize }

theorem nmiRequest_ppuWrite (a : Word) (d : Byte) :
    (ppuWrite a d s).ppu.nmiRequest = s.ppu.nmiRequest := by
  simp only [ppuWrite, Ppu.ntWrite]
  split_ifs <;> rfl

/-- A write to a port other than the data port leaves the memories and the counters (R321 to R326). -/
theorem ppuRegWrite_keeps {i : Nat} (hi : i ≠ 7) (d : Byte) :
    (ppuRegWrite i d s).ppu.invariantPart = s.ppu.invariantPart
      ∧ (ppuRegWrite i d s).ppu.nmiRequest = s.ppu.nmiRequest := by
  simp only [ppuRegWrite, scrollWrite, addrWrite, if_neg hi]
  split_ifs <;> exact ⟨rfl, rfl⟩

theorem Ppu.Ok.ppuRegWrite (h : s.ppu.Ok) (i : Nat) (d : Byte) : (ppuRegWrite i d s).ppu.Ok := by
  by_cases hi : i = 7
  · subst hi
    have hbus : (s.setPpu { s.ppu with ppuBus := d }).ppu.Ok := h.congr rfl
    exact (hbus.ppuWrite _ d).congr rfl
  · exact h.congr (ppuRegWrite_keeps hi d).1

theorem nmiRequest_ppuRegWrite (i : Nat) (d : Byte) :
    (ppuRegWrite i d s).ppu.nmiRequest = s.ppu.nmiRequest := by
  by_cases hi : i = 7
  · subst hi
    exact nmiRequest_ppuWrite (s := s.setPpu { s.ppu with ppuBus := d }) _ d
  · exact (ppuRegWrite_keeps hi d).2

/-- A bus write changes the PPU as a write to one of its ports, or not at all. -/
theorem memWrite_ppu (a : Word) (d : Byte) :
    (memWrite a d s).ppu = s.ppu ∨ (memWrite a d s).ppu = (ppuRegWrite (regIndex a) d s).ppu := by
  unfold memWrite fallbackWrite
  split_ifs
  · exact .inl rfl
  · exact .inr rfl
  · exact .inl rfl
  · exact .inl rfl

theorem nmiRequest_memWrite (a : Word) (d : Byte) :
    (memWrite a d s).ppu.nmiRequest = s.ppu.nmiRequest := by
  obtain h | h := memWrite_ppu (s := s) a d
  · rw [h]
  · rw [h, nmiRequest_ppuRegWrite]

end Ports

/-! ### The cartridge's part -/

/-- A write to CHR RAM stays within its 8 KiB (R98). -/
theorem Cartridge.Ok.chrWrite {cart : Option Cartridge} (h : ∀ c, cart = some c → c.Ok) {k : Nat}
    (hk : k < 0x2000) (d : Byte) : ∀ c, chrWrite cart k d = some c → c.Ok := by
  intro c' hc'
  cases cart with
  | none => cases hc'
  | some c =>
    have hc := h c rfl
    obtain rfl := Option.some.inj hc'
    split
    · rename_i hram
      have hsize := hc.chrSize
      rw [if_pos hram] at hsize
      exact { hc with
        chrWf := Memory.wf_write k d hc.chrWf
        chrSize := by rw [if_pos hram]; exact Memory.below_write d hk hsize }
    · exact hc

/-! ### The invariant without the CPU's part -/

/-- `State.Ok` less what it says of the CPU and of a pending NMI: what every bus access keeps. -/
structure SystemOk (s : State) : Prop where
  params : s.params.ok = true
  ramWf : s.ram.wf = true
  ramSize : s.ram.below 2048 = true
  memWf : s.mem.wf = true
  memSize : s.mem.below 65536 = true
  ppu : s.ppu.Ok
  cart : ∀ c, s.cart = some c → c.Ok

theorem State.Ok.systemOk {s : State} (h : s.Ok) : SystemOk s :=
  ⟨h.params, h.ramWf, h.ramSize, h.memWf, h.memSize, h.ppu, h.cart⟩

theorem SystemOk.ok {s : State} (h : SystemOk s) (cycles : s.cpu.cycles ≤ 10)
    (unused : flag s.cpu.p bitU = true) (noNmi : s.ppu.nmiRequest = false) : s.Ok :=
  ⟨h.params, cycles, unused, h.ramWf, h.ramSize, h.memWf, h.memSize, h.ppu, noNmi, h.cart⟩

namespace SystemOk

variable {s t : State}

theorem setPpu (h : SystemOk s) {p : Ppu} (hp : p.Ok) : SystemOk (s.setPpu p) := { h with ppu := hp }

theorem memRead (h : SystemOk s) (a : Word) : SystemOk (memRead a s).2 := by
  rw [memRead_snd]
  exact h.setPpu (h.ppu.congr (memRead_ppu_keeps s a).1)

theorem memWrite (h : SystemOk s) (a : Word) (d : Byte) : SystemOk (memWrite a d s) where
  params := by rw [memWrite_params]; exact h.params
  ramWf := by
    rw [memWrite_ram]
    split
    · exact Memory.wf_write _ _ h.ramWf
    · exact h.ramWf
  ramSize := by
    rw [memWrite_ram]
    split
    · exact Memory.below_write _ (ramIndex_lt a) h.ramSize
    · exact h.ramSize
  memWf := by
    rw [memWrite_mem]
    split
    · exact Memory.wf_write _ _ h.memWf
    · exact h.memWf
  memSize := by
    rw [memWrite_mem]
    split
    · exact Memory.below_write _ (by have := ramIndex_lt a; omega) h.memSize
    · exact h.memSize
  ppu := by
    obtain hp | hp := memWrite_ppu (s := s) a d
    · rw [hp]; exact h.ppu
    · rw [hp]; exact h.ppu.ppuRegWrite _ d
  cart := by
    obtain hc | ⟨k, hk, hc⟩ := memWrite_cart a d s
    · rw [hc]; exact h.cart
    · rw [hc]; exact Cartridge.Ok.chrWrite h.cart hk d

theorem accesses (h : SystemOk s) (ht : Accesses s t) : SystemOk t := by
  induction ht with
  | refl => exact h
  | setCpu c _ ih => exact { ih with }
  | read a _ ih => exact ih.memRead a
  | write a d _ ih => exact ih.memWrite a d

end SystemOk

/-- Bus accesses neither raise nor clear the NMI request (R60). -/
theorem Accesses.nmiRequest {s t : State} (h : Accesses s t) : t.ppu.nmiRequest = s.ppu.nmiRequest := by
  induction h with
  | refl => rfl
  | setCpu c _ ih => exact ih
  | read a _ ih => rw [(memRead_ppu_keeps _ a).2, ih]
  | write a d _ ih => rw [nmiRequest_memWrite, ih]

end Sys2Proof.Machine

namespace Sys2Proof.Machine

open Sys2Proof

/-! ### What an instruction, an interrupt, a reset and a step do to the whole machine -/

/-- An instruction only accesses the bus and sets registers. -/
theorem accesses_exec {i : Instr} {s t : State} (h : exec i s = .next t) : Accesses s t := by
  obtain ⟨op, v, extra, -, hacc, -, rfl⟩ := exec_next h
  exact (hacc.action i).setCpu _

/-- An instruction leaves U = 1 (R143). -/
theorem unused_of_exec {i : Instr} {s t : State} (h : exec i s = .next t) :
    flag t.cpu.p bitU = true := by
  obtain ⟨op, v, extra, -, -, -, rfl⟩ := exec_next h
  exact flag_putBit_self _ bitU true (by decide)

theorem table_base_le (op : Byte) : (table op).base ≤ 8 := by
  revert op; decide

/-- With the INVALID counts in range every base count is at most 8 (R40; log 8). -/
theorem baseCycles_le {params : Params} (h : params.ok = true) (op : Byte) :
    baseCycles params op ≤ 8 := by
  unfold baseCycles
  split
  · cases hl : params.invalidCycles.lookup op with
    | none => exact table_base_le op
    | some n =>
      obtain ⟨l, l', hsplit, -⟩ := List.lookup_eq_some_iff.mp hl
      have hn := List.all_eq_true.mp h (op, n) (by rw [hsplit]; simp)
      rw [Bool.and_eq_true, decide_eq_true_eq, decide_eq_true_eq] at hn
      exact hn.2
  · exact table_base_le op

/-- An instruction costs at most 3 cycles more than its base, which is at most 8 (R142, R230). -/
theorem cycles_le_of_exec {i : Instr} {s t : State} (hp : s.params.ok = true)
    (h : exec i s = .next t) : t.cpu.cycles ≤ 11 := by
  obtain ⟨op, v, extra, -, -, hv, rfl⟩ := exec_next h
  have hbase : v.cpu.cycles ≤ 8 := by rw [hv]; exact baseCycles_le hp op
  have haction := action_cycles_le i v
  have hextra := extra.toNat_le
  show (action i v).cpu.cycles + extra.toNat ≤ 11
  omega

/-- The reads of an instruction's own bytes (R140, R147). -/
theorem accesses_fetchInstr (s : State) : Accesses s (fetchInstr s).2 := by
  unfold fetchInstr
  dsimp only
  split
  · exact .read _ .refl
  · exact .read _ (.read _ .refl)
  · exact .read _ (.read _ (.read _ .refl))

theorem accesses_nmi (s : State) : Accesses s (nmi s) :=
  (Accesses.refl.takeInterrupt _ _ _).setCpu _

theorem accesses_irq (s : State) : Accesses s (irq s) := by
  unfold irq
  split
  · exact .refl
  · exact (Accesses.refl.takeInterrupt _ _ _).setCpu _

theorem accesses_cpuReset (s : State) : Accesses s (cpuReset s) := by
  rw [cpuReset_frame]; exact .setCpu _ .refl

/-- What a CPU clock can do (R140): count down, or run an instruction and count down. -/
theorem cpuClock_next {s t : State} (h : cpuClock s = .next t) :
    t = countDown s ∨
      ∃ i r v, Accesses s r ∧ exec i r = .next v ∧ t = countDown v := by
  unfold cpuClock at h
  split at h
  · dsimp only at h
    split at h
    next v hv => exact .inr ⟨_, _, v, accesses_fetchInstr s, hv, (Host.Outcome.next.inj h).symm⟩
    all_goals cases h
  · exact .inl (Host.Outcome.next.inj h).symm

/-- What a step can do (R313): the PPU's clock; in the CPU's phase a CPU clock; the end of the bus call. -/
theorem step_next {s t : State} (h : step s = .next t) :
    ∃ u, t = endBusCall u ∧ (u = ppuClock s ∨ cpuClock (ppuClock s) = .next u) := by
  unfold step busClock at h
  dsimp only at h
  split at h
  next u hu =>
    refine ⟨u, (Host.Outcome.next.inj h).symm, ?_⟩
    split at hu
    · exact .inr hu
    · exact .inl (Host.Outcome.next.inj hu).symm
  all_goals cases h

/-- A CPU clock only accesses the bus and sets registers. -/
theorem accesses_cpuClock {s t : State} (h : cpuClock s = .next t) : Accesses s t := by
  obtain rfl | ⟨i, r, v, hr, hv, rfl⟩ := cpuClock_next h
  · exact .setCpu _ .refl
  · exact (hr.trans (accesses_exec hv)).setCpu _

/-! ### The invariant along interrupts, resets and steps -/

/-- Taking an interrupt keeps U = 1 in the live status byte (R302, R303). -/
theorem flag_unused_interrupt (p : Byte) : flag (putBit (pushedByInterrupt p) bitI true) bitU = true := by
  rw [flag_putBit_ne _ _ _ _ (by decide) (by decide)]
  exact flag_putBit_self _ _ _ (by decide)

theorem nmi_ok {s : State} (h : SystemOk s) (hn : s.ppu.nmiRequest = false) : (nmi s).Ok := by
  refine (h.accesses (accesses_nmi s)).ok (by decide : 8 ≤ 10) ?_ ((accesses_nmi s).nmiRequest.trans hn)
  simp only [nmi, State.setCycles_p, takeInterrupt_cpu, flag_unused_interrupt]

theorem irq_ok {s : State} (h : s.Ok) : (irq s).Ok := by
  have hs := h.systemOk.accesses (accesses_irq s)
  have hn := (accesses_irq s).nmiRequest.trans h.noNmi
  unfold irq at hs hn ⊢
  split
  · exact h
  next hi =>
    rw [if_neg hi] at hs hn
    refine hs.ok (by decide : 7 ≤ 10) ?_ hn
    simp only [State.setCycles_p, takeInterrupt_cpu, flag_unused_interrupt]

/-- A reset makes the CPU's part of the invariant hold whatever the registers held (R400). -/
theorem cpuReset_ok {s : State} (h : SystemOk s) (hn : s.ppu.nmiRequest = false) : (cpuReset s).Ok :=
  (h.accesses (accesses_cpuReset s)).ok (by decide : 8 ≤ 10) (by decide : flag 0x20 bitU = true)
    ((accesses_cpuReset s).nmiRequest.trans hn)

/-- The end of a bus call takes a pending NMI and clears the request (R313, R315). -/
theorem endBusCall_ok {s : State} (h : SystemOk s) (hc : s.cpu.cycles ≤ 10)
    (hu : flag s.cpu.p bitU = true) : (endBusCall s).Ok := by
  have hforward : (forwardNmi s).Ok := by
    unfold forwardNmi
    split
    · exact nmi_ok (h.setPpu (h.ppu.congr rfl)) rfl
    next hn => exact h.ok hc hu (Bool.eq_false_iff.mpr hn)
  exact { hforward with }

/-- A CPU clock keeps the CPU's part of the invariant. -/
theorem cpuClock_cpu_ok {s t : State} (h : SystemOk s) (hc : s.cpu.cycles ≤ 10)
    (hu : flag s.cpu.p bitU = true) (ht : cpuClock s = .next t) :
    t.cpu.cycles ≤ 10 ∧ flag t.cpu.p bitU = true := by
  obtain rfl | ⟨i, r, v, hr, hv, rfl⟩ := cpuClock_next ht
  · exact ⟨(Nat.sub_le _ _).trans hc, hu⟩
  · have hcost := cycles_le_of_exec (h.accesses hr).params hv
    exact ⟨Nat.sub_le_of_le_add hcost, (unused_of_exec hv :)⟩

/-- Settles O57: the PPU's clock keeps its own part, every bus access the memories and the cartridge, and
the CPU clock and the NMI the CPU's part. -/
theorem stepKeepsOk : Obligations.StepKeepsOk := by
  intro s t h ht
  have hppu : SystemOk (ppuClock s) := h.systemOk.setPpu (h.ppu.tick s.cart)
  obtain ⟨u, rfl, rfl | hu⟩ := step_next ht
  · exact endBusCall_ok hppu h.cycles h.unused
  · obtain ⟨hcycles, hunused⟩ := cpuClock_cpu_ok hppu h.cycles h.unused hu
    exact endBusCall_ok (hppu.accesses (accesses_cpuClock hu)) hcycles hunused

end Sys2Proof.Machine

namespace Sys2Proof.Machine

open Sys2Proof

/-! ### The program image -/

/-- `c'` is `c` but for the contents of CHR RAM (20_memory.md R96, R98). -/
inductive CartKept : Option Cartridge → Option Cartridge → Prop
  | none : CartKept none none
  | some {c c' : Cartridge} (prg : c'.prg = c.prg) (prgBanks : c'.prgBanks = c.prgBanks)
      (chrBanks : c'.chrBanks = c.chrBanks) (mapper : c'.mapper = c.mapper)
      (mirroring : c'.mirroring = c.mirroring) (chr : c.chrBanks ≠ 0 → c'.chr = c.chr) :
      CartKept (some c) (some c')

namespace CartKept

variable {c d e : Option Cartridge}

theorem refl : ∀ c, CartKept c c
  | .none => .none
  | .some _ => .some rfl rfl rfl rfl rfl fun _ => rfl

theorem trans (h : CartKept c d) (h' : CartKept d e) : CartKept c e := by
  cases h with
  | none => exact h'
  | some prg banks chrBanks mapper mirroring chr =>
    cases h' with
    | some prg' banks' chrBanks' mapper' mirroring' chr' =>
      exact .some (prg'.trans prg) (banks'.trans banks) (chrBanks'.trans chrBanks)
        (mapper'.trans mapper) (mirroring'.trans mirroring)
        fun hrom => (chr' (by rwa [chrBanks])).trans (chr hrom)

theorem chrWrite (c : Option Cartridge) (k : Nat) (d : Byte) : CartKept c (chrWrite c k d) := by
  cases c with
  | none => exact .none
  | some c =>
    obtain ⟨c', hc', prg, banks, chrBanks, mapper, mirroring, chr⟩ := chrWrite_some c k d
    rw [hc']
    exact .some prg banks chrBanks mapper mirroring fun hrom => by rw [chr, if_neg hrom]

theorem eq_none (h : CartKept .none d) : d = .none := by
  cases h; rfl

theorem exists_some {k : Cartridge} (h : CartKept (.some k) d) :
    ∃ k', d = .some k' ∧ k'.prg = k.prg ∧ k'.prgBanks = k.prgBanks ∧ k'.chrBanks = k.chrBanks
      ∧ k'.mapper = k.mapper ∧ k'.mirroring = k.mirroring ∧ (k.chrBanks ≠ 0 → k'.chr = k.chr) := by
  cases h with
  | some prg banks chrBanks mapper mirroring chr =>
    exact ⟨_, rfl, prg, banks, chrBanks, mapper, mirroring, chr⟩

theorem romByte (h : CartKept c d) (addr : Nat) : romByte d addr = romByte c addr := by
  cases h with
  | none => rfl
  | some prg banks => simp only [Machine.romByte, prg, banks]

end CartKept

/-- From `s` to `t` nothing at 0x4000 and above has changed, nor the parameters, nor the cartridge but its
CHR RAM. -/
structure RomKept (s t : State) : Prop where
  memWf : s.mem.wf = true → t.mem.wf = true
  mem : s.mem.wf = true → ∀ addr, 0x4000 ≤ addr → t.mem.read addr = s.mem.read addr
  params : t.params = s.params
  cart : CartKept s.cart t.cart

namespace RomKept

variable {s t u : State}

theorem of_eq (mem : t.mem = s.mem) (params : t.params = s.params) (cart : t.cart = s.cart) :
    RomKept s t :=
  ⟨fun h => by rwa [mem], fun _ _ _ => by rw [mem], params, by rw [cart]; exact .refl _⟩

theorem trans (h : RomKept s t) (h' : RomKept t u) : RomKept s u where
  memWf hs := h'.memWf (h.memWf hs)
  mem hs addr ha := (h'.mem (h.memWf hs) addr ha).trans (h.mem hs addr ha)
  params := h'.params.trans h.params
  cart := h.cart.trans h'.cart

theorem memRead (a : Word) (s : State) : RomKept s (memRead a s).2 :=
  of_eq (memRead_mem a s) (memRead_params a s) (memRead_cart a s)

/-- A write reaches the backing array below index 0x0800 alone (R77). -/
theorem memWrite (a : Word) (d : Byte) (s : State) : RomKept s (memWrite a d s) where
  memWf h := by
    rw [memWrite_mem]
    split
    · exact Memory.wf_write _ _ h
    · exact h
  mem h addr ha := by
    rw [memWrite_mem]
    split
    · rw [Memory.read_write h, if_neg (by have := ramIndex_lt a; omega)]
    · rfl
  params := memWrite_params a d s
  cart := by
    obtain hc | ⟨k, -, hc⟩ := memWrite_cart a d s
    · rw [hc]; exact .refl _
    · rw [hc]; exact .chrWrite _ k d

theorem of_accesses (h : Accesses s t) : RomKept s t := by
  induction h with
  | refl => exact of_eq rfl rfl rfl
  | setCpu c _ ih => exact ih.trans (of_eq rfl rfl rfl)
  | read a _ ih => exact ih.trans (memRead a _)
  | write a d _ ih => exact ih.trans (memWrite a d _)

theorem endBusCall (s : State) : RomKept s (endBusCall s) := by
  have hforward : RomKept s (forwardNmi s) := by
    unfold forwardNmi
    split
    · have hclear : RomKept s (s.setPpu { s.ppu with nmiRequest := false }) := of_eq rfl rfl rfl
      exact hclear.trans (of_accesses (accesses_nmi _))
    · exact of_eq rfl rfl rfl
  exact hforward.trans (of_eq rfl rfl rfl)

theorem step (h : step s = .next t) : RomKept s t := by
  have hppu : RomKept s (ppuClock s) := of_eq rfl rfl rfl
  obtain ⟨u, rfl, rfl | hu⟩ := step_next h
  · exact hppu.trans (endBusCall _)
  · exact (hppu.trans (of_accesses (accesses_cpuClock hu))).trans (endBusCall u)

theorem romInstalled (h : RomKept s t) (hwf : s.mem.wf = true) (hs : RomInstalled s) :
    RomInstalled t := by
  intro addr hlo hhi
  rw [h.mem hwf addr hlo, hs addr hlo hhi, h.cart.romByte]

end RomKept

/-- Settles O59: no bus access of a step reaches the image, the parameters or the cartridge but its CHR RAM
(`RomKept`). -/
theorem stepKeepsTheRom : Obligations.StepKeepsTheRom := by
  intro s t h hwf hrom
  have hkept := RomKept.step h
  exact ⟨hkept.romInstalled hwf hrom, hkept.params, fun hnone => (hnone ▸ hkept.cart).eq_none,
    fun c hsome => (hsome ▸ hkept.cart).exists_some⟩

/-! ### Power-on, a loaded cartridge, and runs -/

theorem Memory.below_ofBytes_take (n : Nat) (bs : List Byte) :
    Memory.below n (Memory.ofBytes 0 (bs.take n)) = true :=
  Memory.below_ofBytes n _ 0 (by rw [Nat.zero_add]; exact List.length_take_le n bs)

/-- The power-on state, whatever the draws, but for the CPU's registers (R63). -/
theorem powerOn_ok {params : Params} (h : params.ok = true) (d : PowerOn) :
    SystemOk (powerOn params d) :=
  { params := h
    ramWf := Memory.wf_ofBytes _ _
    ramSize := Memory.below_ofBytes_take _ _
    memWf := rfl
    memSize := rfl
    ppu :=
      { nt0Wf := Memory.wf_ofBytes _ _
        nt0Size := Memory.below_ofBytes_take _ _
        nt1Wf := Memory.wf_ofBytes _ _
        nt1Size := Memory.below_ofBytes_take _ _
        paletteWf := Memory.wf_ofBytes _ _
        paletteSize := Memory.below_ofBytes_take _ _
        scanline := (by decide : (-1 : Int) ≤ -1 ∧ (-1 : Int) ≤ 260)
        cycle := Nat.zero_le _
        noSprites := ⟨rfl, rfl⟩
        attrib := Nat.zero_le _
        pixel := fun _ h => nomatch h }
    cart := fun _ h => nomatch h }

/-- `State.reset` is the reset of a power-on state with every draw 0 (log 2, 3, 4). -/
theorem reset_eq : State.reset = cpuReset (powerOn Params.default PowerOn.zero) := rfl

/-- Settles O58: it is the reset of a power-on state, and with no cartridge every byte is 0. -/
theorem resetIsOk : Obligations.ResetIsOk :=
  ⟨reset_eq ▸ cpuReset_ok (powerOn_ok rfl PowerOn.zero) rfl, fun _ _ _ => rfl⟩

/-- The loader accepts mapper-0 images with one or two PRG banks, and fills memories of their size
(20_memory.md R85 to R93). -/
theorem loadCartridge_ok {image chrDraw : List Byte} {c : Cartridge}
    (h : loadCartridge image chrDraw = .ok c) : c.Ok := by
  unfold loadCartridge at h
  split at h
  · cases h
  split at h
  · cases h
  next hmapper =>
  split at h
  · cases h
  next hbanks =>
  split at h
  · cases h
  obtain rfl := Except.ok.inj h
  exact
    { mapper := not_not.mp hmapper
      banks := by
        rwa [not_and_or, not_not, not_not] at hbanks
      prgWf := Memory.wf_ofBytes _ _
      prgSize := Memory.below_ofBytes_take _ _
      chrWf := by
        dsimp only
        split <;> exact Memory.wf_ofBytes _ _
      chrSize := by
        dsimp only
        split <;> exact Memory.below_ofBytes_take _ _ }

/-- An inserted cartridge is one the loader made (R94, R99). -/
theorem insertCartridge_next {image chrDraw : List Byte} {s t : State}
    (h : insertCartridge image chrDraw s = .ok t) :
    ∃ c, c.Ok ∧ t = installCartridge c s := by
  unfold insertCartridge at h
  split at h
  next c hc => exact ⟨c, loadCartridge_ok hc, (Except.ok.inj h).symm⟩
  next => cases h

/-- The installed image is what `RomInstalled` asks for (R92). -/
theorem programImage_read_eq_romByte (c : Cartridge) {addr : Nat} (h : addr < 0x10000) :
    (programImage c).read addr = romByte (some c) addr := by
  rw [programImage_read, romByte]
  by_cases hlow : addr < 0x8000
  · rw [if_pos hlow, if_neg (by omega)]
  · rw [if_neg hlow, if_pos (by omega)]

section Install

variable {s : State} {c : Cartridge}

theorem installCartridge_systemOk (h : SystemOk s) (hc : c.Ok) : SystemOk (installCartridge c s) := by
  rw [installCartridge_eq]
  have hwf := programImage_wf c
  have hsize := programImage_below c
  generalize programImage c = m at hwf hsize
  exact { h with memWf := hwf, memSize := hsize, cart := fun _ heq => Option.some.inj heq ▸ hc }

theorem installCartridge_romInstalled (c : Cartridge) (s : State) :
    RomInstalled (installCartridge c s) := by
  have hread (addr : Nat) (h : addr < 0x10000) := programImage_read_eq_romByte c h
  rw [installCartridge_eq]
  generalize programImage c = m at hread
  exact fun addr _ hhi => hread addr hhi

theorem installCartridge_ppu (c : Cartridge) (s : State) : (installCartridge c s).ppu = s.ppu := by
  rw [installCartridge_eq]

theorem installCartridge_ok (h : s.Ok) (hc : c.Ok) : (installCartridge c s).Ok := by
  refine (installCartridge_systemOk h.systemOk hc).ok ?_ ?_ ?_
  all_goals rw [installCartridge_eq]
  exacts [h.cycles, h.unused, h.noNmi]

end Install

/-- The invariant of runs. -/
abbrev RunOk (s : State) : Prop := s.Ok ∧ RomInstalled s

/-- Every host operation keeps the invariant of runs (R316, D41). -/
theorem hostOp_keeps_runOk {op : HostOp} {s t : State} (h : hostOp op s = .next t) (hs : RunOk s) :
    RunOk t := by
  obtain ⟨hok, hrom⟩ := hs
  have haccess {u : State} (hu : Accesses s u) : RomInstalled u :=
    (RomKept.of_accesses hu).romInstalled hok.memWf hrom
  cases op with
  | insertCartridge image chrDraw =>
    unfold hostOp at h
    dsimp only at h
    split at h
    next u hu =>
      obtain ⟨c, hc, rfl⟩ := insertCartridge_next hu
      obtain rfl := Host.Outcome.next.inj h
      exact ⟨installCartridge_ok hok hc, installCartridge_romInstalled c s⟩
    next => cases h
  | clock => exact ⟨stepKeepsOk s t hok h, (RomKept.step h).romInstalled hok.memWf hrom⟩
  | reset =>
    obtain rfl := Host.Outcome.next.inj h
    exact ⟨cpuReset_ok hok.systemOk hok.noNmi, haccess (accesses_cpuReset s)⟩
  | irq =>
    obtain rfl := Host.Outcome.next.inj h
    exact ⟨irq_ok hok, haccess (accesses_irq s)⟩
  | nmi =>
    obtain rfl := Host.Outcome.next.inj h
    exact ⟨nmi_ok hok.systemOk hok.noNmi, haccess (accesses_nmi s)⟩
  | clearFrameCompleted =>
    have hcleared : SystemOk (clearFrameCompleted s) := hok.systemOk.setPpu (hok.ppu.congr rfl)
    obtain rfl := Host.Outcome.next.inj h
    exact ⟨hcleared.ok hok.cycles hok.unused hok.noNmi, hrom⟩

theorem runHost_cons {op : HostOp} {ops : List HostOp} {s t : State}
    (h : runHost (op :: ops) s = .next t) :
    ∃ u, hostOp op s = .next u ∧ runHost ops u = .next t := by
  unfold runHost at h
  split at h
  next u hu => exact ⟨u, hu, h⟩
  all_goals cases h

theorem runHost_keeps_runOk {s t : State} (ops : List HostOp) (h : runHost ops s = .next t)
    (hs : RunOk s) : RunOk t := by
  induction ops generalizing s with
  | nil =>
    obtain rfl := Host.Outcome.next.inj h
    exact hs
  | cons op ops ih =>
    obtain ⟨u, hu, hrest⟩ := runHost_cons h
    exact ih hrest (hostOp_keeps_runOk hu hs)

/-- What boot does (R403). -/
theorem boot_next {params : Params} {d : PowerOn} {image chrDraw : List Byte} {s : State}
    (h : boot params d image chrDraw = .next s) :
    ∃ c, c.Ok ∧ s = cpuReset (installCartridge c (powerOn params d)) := by
  obtain ⟨u, hu, hrest⟩ := runHost_cons h
  obtain ⟨v, hv, hdone⟩ := runHost_cons hrest
  obtain rfl := Host.Outcome.next.inj hv
  obtain rfl := Host.Outcome.next.inj hdone
  unfold hostOp at hu
  dsimp only at hu
  split at hu
  next w hw =>
    obtain ⟨c, hc, rfl⟩ := insertCartridge_next hw
    obtain rfl := Host.Outcome.next.inj hu
    exact ⟨c, hc, rfl⟩
  next => cases hu

/-- Boot ends in the invariant of runs: the reset sets the CPU's registers, which power-on leaves open. -/
theorem boot_runOk {params : Params} {d : PowerOn} {image chrDraw : List Byte} {s : State}
    (hp : params.ok = true) (h : boot params d image chrDraw = .next s) : RunOk s := by
  obtain ⟨c, hc, rfl⟩ := boot_next h
  have hsys := installCartridge_systemOk (powerOn_ok hp d) hc
  have hrom := installCartridge_romInstalled c (powerOn params d)
  refine ⟨cpuReset_ok hsys (by rw [installCartridge_ppu]; rfl), ?_⟩
  exact (RomKept.of_accesses (accesses_cpuReset _)).romInstalled hsys.memWf hrom

/-- Settles O60: every host operation keeps `RunOk`, boot gives it, and a run is an induction over its
operations. -/
theorem reachableStatesAreOk : Obligations.ReachableStatesAreOk := by
  refine ⟨fun op s t h hok hrom => hostOp_keeps_runOk h ⟨hok, hrom⟩,
    fun params d image chrDraw s hp h => boot_runOk hp h, ?_⟩
  rintro s ⟨params, d, image, chrDraw, launch, ops, hp, hboot, hrun⟩
  exact runHost_keeps_runOk ops hrun (boot_runOk hp hboot)

end Sys2Proof.Machine

namespace Sys2Proof.Machine

open Sys2Proof

/-!
PROOFS of the statements on 20_memory.md. An instruction that stores nothing keeps the memories because its
reads do and its action does; a bus access at the PPU's window is the access to its port; a PPU address in
each of its three ranges reads and writes one memory.
-/

/-! ### Instructions that store nothing -/

/-- The two memory arrays and the cartridge: all that can hold a byte but the PPU (R41, R42, R44). -/
def State.memories (s : State) : Memory × Memory × Option Cartridge := (s.ram, s.mem, s.cart)

theorem memories_eq_iff {s t : State} :
    t.memories = s.memories ↔ t.ram = s.ram ∧ t.mem = s.mem ∧ t.cart = s.cart := by
  simp only [State.memories, Prod.mk.injEq]

theorem memories_branch (cond : Bool) (s : State) : (branch cond s).memories = s.memories := by
  cases cond <;> rfl

/-- An address resolution reads, and no more (40_pipeline_addressing.md R150 to R161). -/
theorem memories_effective (o : Operand) (s : State) :
    (effective o s).state.memories = s.memories := by
  have hpointer (l h : Word) : (readPointer l h s).2.memories = s.memories := by
    rw [readPointer_snd]; rfl
  cases o with
  | ind | izx | izy => exact hpointer _ _
  | _ => rfl

/-- Until its action begins an instruction writes nothing (R147, R148). -/
theorem memories_fetchIfReader (i : Instr) (op : Byte) (s : State) :
    (fetchIfReader i (addrMode i.operand (beginInstr op s))).memories = s.memories := by
  have hmode : (addrMode i.operand (beginInstr op s)).memories = s.memories := by
    rw [addrMode_beginInstr]; exact memories_effective i.operand s
  rw [fetchIfReader]
  split
  · rw [fetchOperand_eq]; exact hmode
  · exact hmode

/-- The action of an instruction that is no store, push or memory read-modify-write (R148). -/
theorem memories_action {i : Instr} (h : storesToMemory i = false) (v : State) :
    (action i v).memories = v.memories := by
  cases i with
  | sta | stx | sty | inc | dec | pha | php | jsr | brk => exact nomatch h
  | asl o | lsr o | rol o | ror o =>
    cases o with
    | imp => rfl
    | _ => exact nomatch h
  | bcc | bcs | beq | bne | bmi | bpl | bvc | bvs => exact memories_branch _ v
  | rts => rw [action, popWord_eq]; rfl
  | rti => rw [action, returnFromInterrupt_eq]; rfl
  | pla | plp => rw [action, pop_eq]; rfl
  | _ => rfl

theorem memories_exec {i : Instr} {s t : State} (h : exec i s = .next t)
    (hi : storesToMemory i = false) : t.memories = s.memories := by
  obtain ⟨op, -, -, -, hrun⟩ := runEntry_next (wellFormed_of_exec h)
    (acceptsPageCross.contains i.op) (fun u => action i (fetchIfReader i u)) s
  obtain rfl := Host.Outcome.next.inj ((exec_eq_runEntry i s ▸ hrun).symm.trans h)
  exact (memories_action hi _).trans (memories_fetchIfReader i op s)

/-- Bus accesses do not advance the system clock (10_state.md R43). -/
theorem Accesses.sysClock {s t : State} (h : Accesses s t) : t.sysClock = s.sysClock := by
  induction h with
  | refl => rfl
  | setCpu c _ ih => exact ih
  | read a _ ih => rw [memRead_sysClock, ih]
  | write a d _ ih => rw [memWrite_sysClock, ih]

/-- Settles O12: an instruction is a run of bus accesses, and where it stores nothing neither its reads nor
its action write (`memories_exec`). -/
theorem memoryChangesOnlyInStores : Obligations.MemoryChangesOnlyInStores := by
  intro i s t h
  have hacc := accesses_exec h
  refine ⟨hacc.sysClock, (RomKept.of_accesses hacc).params, fun hi => ?_⟩
  obtain ⟨hram, hmem, hcart⟩ := memories_eq_iff.mp (memories_exec h hi)
  exact ⟨hram, hmem, hcart, SameBytes.of_eq hram hmem⟩

end Sys2Proof.Machine

namespace Sys2Proof.Machine

open Sys2Proof

/-! ### The bus by address range -/

theorem inRam_eq_false_iff (a : Word) : inRam a = false ↔ 0x2000 ≤ a.toNat := by
  rw [← Bool.not_eq_true, inRam_iff, not_lt]

theorem inRam_of_window {a : Word} (h : inPpuWindow a = true) : inRam a = false :=
  (inRam_eq_false_iff a).mpr ((inPpuWindow_iff a).mp h).1

/-- At the PPU's window a read is the port's (R74). -/
theorem memRead_of_window {a : Word} (h : inPpuWindow a = true) (s : State) :
    memRead a s = ppuRegRead (a.toNat % 8) false s := by
  simp only [memRead, busRead, inRam_of_window h, h, regIndex_eq, if_true, Bool.false_eq_true, if_false]

/-- At the PPU's window a write is the port's (R74). -/
theorem memWrite_of_window {a : Word} (h : inPpuWindow a = true) (d : Byte) (s : State) :
    memWrite a d s = ppuRegWrite (a.toNat % 8) d s := by
  simp only [memWrite, inRam_of_window h, h, regIndex_eq, if_true, Bool.false_eq_true, if_false]

/-- The ports repeat every 8 bytes: the first address of a port. -/
theorem toNat_firstPort (n : Nat) : (0x2000 + BitVec.ofNat 16 (n % 8) : Word).toNat = 0x2000 + n % 8 := by
  rw [BitVec.toNat_add, BitVec.toNat_ofNat]
  show (0x2000 + n % 8 % 65536) % 65536 = 0x2000 + n % 8
  omega

theorem inPpuWindow_firstPort (n : Nat) :
    inPpuWindow (0x2000 + BitVec.ofNat 16 (n % 8) : Word) = true := by
  rw [inPpuWindow_iff, toNat_firstPort]; omega

theorem toNat_firstPort_mod (n : Nat) :
    (0x2000 + BitVec.ofNat 16 (n % 8) : Word).toNat % 8 = n % 8 := by
  rw [toNat_firstPort]; omega

/-- From 0x4000 up a peek is the backing array's byte (R75, R76). -/
theorem peek_of_high {a : Word} (h : 0x4000 ≤ a.toNat) (s : State) :
    peek s a = s.mem.read a.toNat := by
  have hram : ¬ inRam a = true := by rw [inRam_iff]; omega
  rw [peek_of_not_window ((inPpuWindow_eq_false_iff a).mpr (.inr h)), if_neg hram]

theorem peek_of_inRam {a : Word} (h : inRam a = true) (s : State) :
    peek s a = s.ram.read (ramIndex a) := by
  rw [peek_of_not_window (inPpuWindow_of_inRam h), if_pos h]

/-- Settles O42: a read by the range of its address. -/
theorem busReads : Obligations.BusReads := by
  intro s a
  refine ⟨memRead_fst a s, busRead_true_snd a s, fun h => memRead_snd_of_not_window h s, ?_, ?_, ?_⟩
  · intro h
    rw [peek_of_inRam ((inRam_iff a).mpr h), ramIndex_eq]
  · intro hlo hhi
    rw [memRead_of_window ((inPpuWindow_iff a).mpr ⟨hlo, hhi⟩),
      memRead_of_window (inPpuWindow_firstPort _), toNat_firstPort_mod]
  · intro hrom h
    rw [peek_of_high h, hrom a.toNat h a.isLt]

/-- A store reaches the RAM byte of its address under every mirror, and no other (R73, R77). -/
theorem peek_memWrite_of_inRam {s : State} (hram : s.ram.wf = true) (ea : Word) (d : Byte) {a : Word}
    (ha : inRam a = true) :
    peek (memWrite ea d s) a = if storeHits s ea a then d else peek s a := by
  have hhits : storeHits s ea a
      = (ramIndex a == ramIndex ea
          && (inRam ea || (!inPpuWindow ea && s.params.fallbackAliasesRam))) := by
    rw [storeHits, ha, Bool.true_and]
  rw [peek_of_inRam ha, peek_of_inRam ha, memWrite_ram, hhits]
  by_cases hreach : (inRam ea || (!inPpuWindow ea && s.params.fallbackAliasesRam)) = true
  · rw [if_pos hreach, Memory.read_write hram, hreach, Bool.and_true]
    simp only [beq_iff_eq]
  · rw [if_neg hreach, Bool.eq_false_iff.mpr hreach, Bool.and_false]
    rfl

/-- No store reaches a byte from 0x4000 up (R77, R110). -/
theorem peek_memWrite_of_high {s : State} (hmem : s.mem.wf = true) (ea : Word) (d : Byte) {a : Word}
    (ha : 0x4000 ≤ a.toNat) :
    peek (memWrite ea d s) a = if storeHits s ea a then d else peek s a := by
  have hram : inRam a = false := (inRam_eq_false_iff a).mpr (by omega)
  rw [peek_of_high ha, peek_of_high ha, (RomKept.memWrite ea d s).mem hmem _ ha, storeHits, hram]
  rfl

/-- Settles O43: what a write changes below 0x2000 and from 0x4000 up, and the ports by their number. -/
theorem busWritesChangeOneByte : Obligations.BusWritesChangeOneByte := by
  intro s ea d hram hmem
  refine ⟨fun a ha => ?_, fun hlo hhi => ?_, (RomKept.memWrite ea d s).romInstalled hmem⟩
  · obtain hlow | hhigh := (inPpuWindow_eq_false_iff a).mp ha
    · exact peek_memWrite_of_inRam hram ea d ((inRam_iff a).mpr hlow)
    · exact peek_memWrite_of_high hmem ea d hhigh
  · rw [memWrite_of_window ((inPpuWindow_iff ea).mpr ⟨hlo, hhi⟩),
      memWrite_of_window (inPpuWindow_firstPort _), toNat_firstPort_mod]

end Sys2Proof.Machine

namespace Sys2Proof.Machine

open Sys2Proof

/-! ### Loading a cartridge -/

/-- The loader's checks, in the order in which they are written (R86, R90, R91; log 17). -/
theorem loadCartridge_badHeader {image : List Byte} (chrDraw : List Byte)
    (h : image.length < 16 ∨ image.take 4 ≠ magic) :
    loadCartridge image chrDraw = .error .badHeader := if_pos h

section Checks

variable {image : List Byte} (chrDraw : List Byte)
  (hheader : ¬(image.length < 16 ∨ image.take 4 ≠ magic))

include hheader

theorem loadCartridge_unsupportedMapper (h : mapperId image ≠ 0) :
    loadCartridge image chrDraw = .error .unsupportedMapper := by
  rw [loadCartridge, if_neg hheader, if_pos h]

theorem loadCartridge_prgBankCount (hmapper : mapperId image = 0)
    (h : imageByte image 4 ≠ 1 ∧ imageByte image 4 ≠ 2) :
    loadCartridge image chrDraw = .error .prgBankCount := by
  rw [loadCartridge, if_neg hheader, if_neg (not_not.mpr hmapper), if_pos h]

theorem loadCartridge_truncated (hmapper : mapperId image = 0)
    (hbanks : ¬(imageByte image 4 ≠ 1 ∧ imageByte image 4 ≠ 2))
    (h : image.length < 16 + prgSize image + chrSize image) :
    loadCartridge image chrDraw = .error .truncated := by
  rw [loadCartridge, if_neg hheader, if_neg (not_not.mpr hmapper), if_neg hbanks, if_pos h]

/-- An image that passes every check (R87 to R93). -/
theorem loadCartridge_accepts (hmapper : mapperId image = 0)
    (hbanks : ¬(imageByte image 4 ≠ 1 ∧ imageByte image 4 ≠ 2))
    (hsize : ¬image.length < 16 + prgSize image + chrSize image) :
    ∃ c, loadCartridge image chrDraw = .ok c ∧ c.prgBanks = imageByte image 4
      ∧ c.chrBanks = imageByte image 5 ∧ c.mirroring = headerMirroring image
      ∧ c.prg = Memory.ofBytes 0 (imageSlice image 16 (prgSize image))
      ∧ c.chr = if imageByte image 5 = 0 then Memory.ofBytes 0 (chrDraw.take 8192)
          else Memory.ofBytes 0 (imageSlice image (16 + prgSize image) (chrSize image)) := by
  rw [loadCartridge, if_neg hheader, if_neg (not_not.mpr hmapper), if_neg hbanks, if_neg hsize]
  exact ⟨_, rfl, rfl, rfl, rfl, rfl, rfl⟩

end Checks

theorem insertCartridge_of_error {image chrDraw : List Byte} {e : LoadError}
    (h : loadCartridge image chrDraw = .error e) (s : State) :
    insertCartridge image chrDraw s = .error e := by
  rw [insertCartridge, h]

theorem insertCartridge_of_ok {image chrDraw : List Byte} {c : Cartridge}
    (h : loadCartridge image chrDraw = .ok c) (s : State) :
    insertCartridge image chrDraw s = .ok (installCartridge c s) := by
  rw [insertCartridge, h]

/-- A memory filled from the first bytes of a list. -/
theorem read_ofBytes_take (bs : List Byte) {n k : Nat} (h : k < n) :
    (Memory.ofBytes 0 (bs.take n)).read k = bs.getD k 0 := by
  rw [Memory.read_ofBytes, if_pos (Nat.zero_le k), Nat.sub_zero, List.getD_eq_getElem?_getD,
    List.getElem?_take_of_lt h, ← List.getD_eq_getElem?_getD]

/-- A memory filled from a part of the image. -/
theorem read_ofBytes_imageSlice (image : List Byte) (start : Nat) {n k : Nat} (h : k < n) :
    (Memory.ofBytes 0 (imageSlice image start n)).read k = imageByte image (start + k) := by
  rw [imageSlice, read_ofBytes_take _ h, imageByte, List.getD_eq_getElem?_getD, List.getElem?_drop,
    ← List.getD_eq_getElem?_getD]

/-- The installed program image, from the image of the cartridge (R92). -/
theorem read_programImage_image {image : List Byte} {c : Cartridge}
    (hbanks : c.prgBanks = imageByte image 4) (hpos : 0 < prgSize image)
    (hprg : c.prg = Memory.ofBytes 0 (imageSlice image 16 (prgSize image))) {k : Nat}
    (h : k < 0x8000) :
    (programImage c).read (0x8000 + k) = imageByte image (16 + k % prgSize image) := by
  rw [programImage_read, if_pos (by omega), Nat.add_sub_cancel_left, hbanks, hprg]
  exact read_ofBytes_imageSlice image 16 (Nat.mod_lt k hpos)

theorem installCartridge_mem (c : Cartridge) (s : State) :
    (installCartridge c s).mem = programImage c := by
  rw [installCartridge_eq]

theorem installCartridge_cart (c : Cartridge) (s : State) :
    (installCartridge c s).cart = some c := by
  rw [installCartridge_eq]

theorem installCartridge_cpu (c : Cartridge) (s : State) :
    (installCartridge c s).cpu
      = { s.cpu with pc := peek16 (installCartridge c s) resetVector } := by
  rw [peek16_resetVector, installCartridge_mem, installCartridge_eq]

/-- Installing a cartridge leaves RAM, the system clock and the parameters (R99). -/
theorem installCartridge_frame (c : Cartridge) (s : State) :
    (installCartridge c s).ram = s.ram ∧ (installCartridge c s).sysClock = s.sysClock
      ∧ (installCartridge c s).params = s.params := by
  rw [installCartridge_eq]
  exact ⟨rfl, rfl, rfl⟩

/-- The CHR memory of an accepted image: CHR ROM from the image, or with no CHR bank the draw of CHR RAM
(R93). -/
theorem chr_of_loaded {image chrDraw : List Byte} {chr : Memory}
    (h : chr = if imageByte image 5 = 0 then Memory.ofBytes 0 (chrDraw.take 8192)
      else Memory.ofBytes 0 (imageSlice image (16 + prgSize image) (chrSize image))) :
    (∀ k, k < chrSize image → chr.read k = imageByte image (16 + prgSize image + k)) ∧
    (chrSize image = 0 → ∀ k, k < 0x2000 → chr.read k = chrDraw.getD k 0) := by
  by_cases hram : imageByte image 5 = 0
  · have hzero : chrSize image = 0 := by rw [chrSize, hram]; rfl
    rw [if_pos hram] at h
    subst h
    exact ⟨fun k hk => absurd hk (by omega), fun _ k hk => read_ofBytes_take chrDraw hk⟩
  · have hpos : (imageByte image 5).toNat ≠ 0 := fun h0 => hram (BitVec.eq_of_toNat_eq h0)
    rw [if_neg hram] at h
    subst h
    refine ⟨fun k hk => read_ofBytes_imageSlice image _ hk, fun hzero => ?_⟩
    rw [chrSize] at hzero
    omega

/-- Settles O45: the loader's checks one by one; the cartridge of an image that passes them all, and what
installing it changes. -/
theorem insertCartridge_rejectsOrInstalls : Obligations.InsertCartridge := by
  intro image chrDraw s byte mapper prg chr
  refine ⟨fun hbad => insertCartridge_of_error (loadCartridge_badHeader chrDraw hbad) s, ?_⟩
  intro hlen hmagic
  have hheader : ¬(image.length < 16 ∨ image.take 4 ≠ magic) :=
    not_or.mpr ⟨not_lt.mpr hlen, not_not.mpr hmagic⟩
  refine ⟨fun hmapper => insertCartridge_of_error
    (loadCartridge_unsupportedMapper chrDraw hheader hmapper) s, fun hmapper => ⟨?_, ?_⟩⟩
  · exact fun h1 h2 => insertCartridge_of_error
      (loadCartridge_prgBankCount chrDraw hheader hmapper ⟨h1, h2⟩) s
  intro hone
  have hbanks : ¬(imageByte image 4 ≠ 1 ∧ imageByte image 4 ≠ 2) := by
    rwa [not_and_or, not_not, not_not]
  refine ⟨fun hshort => insertCartridge_of_error
    (loadCartridge_truncated chrDraw hheader hmapper hbanks hshort) s, fun hlong => ?_⟩
  obtain ⟨c, hload, hprgBanks, hchrBanks, hmirroring, hprg, hchr⟩ :=
    loadCartridge_accepts chrDraw hheader hmapper hbanks (not_lt.mpr hlong)
  have hpos : 0 < prgSize image := by
    rw [prgSize]
    obtain h | h := hone <;> rw [show imageByte image 4 = _ from h] <;> decide
  obtain ⟨hrom, hram⟩ := chr_of_loaded hchr
  obtain ⟨hkeepRam, hkeepClock, hkeepParams⟩ := installCartridge_frame c s
  refine ⟨installCartridge c s, c, insertCartridge_of_ok hload s, installCartridge_cart c s,
    loadCartridge_ok hload, hprgBanks, hchrBanks, hmirroring, fun k hk => ?_, fun k hk => ?_,
    fun k hk => ?_, hrom, hram, installCartridge_cpu c s, installCartridge_ppu c s, hkeepRam,
    hkeepClock, hkeepParams⟩
  · rw [hprg]; exact read_ofBytes_imageSlice image 16 hk
  · rw [installCartridge_mem]; exact read_programImage_image hprgBanks hpos hprg hk
  · rw [installCartridge_mem, programImage_read, if_neg (by omega)]

end Sys2Proof.Machine

namespace Sys2Proof.Machine

open Sys2Proof

/-! ### The PPU's address space by range (R97 to R104) -/

section PpuSpace

variable {addr : Word} {a : Nat} (ha : addr.toNat % 0x4000 = a)

include ha

theorem ppuRead_of_pattern (h : a < 0x2000) (cart : Option Cartridge) (p : Ppu) :
    ppuRead cart p addr = chrRead cart a := by
  simp only [ppuRead, toNat_and_ppuMask, ha]
  rw [if_pos (by omega)]

theorem ppuRead_of_nameTable (hlo : 0x2000 ≤ a) (hhi : a < 0x3F00) (cart : Option Cartridge) (p : Ppu) :
    ppuRead cart p addr = p.ntRead (ntSelect cart a) (a % 0x400) := by
  simp only [ppuRead, toNat_and_ppuMask, ha]
  rw [if_neg (by omega), if_pos (by omega), show a &&& 0x03FF = a % 0x400 from
    Nat.and_two_pow_sub_one_eq_mod a 10]

theorem ppuRead_of_palette (h : 0x3F00 ≤ a) (cart : Option Cartridge) (p : Ppu) :
    ppuRead cart p addr
      = p.palette.read (palIndex a) &&& (if p.grayscale then 0x30 else 0x3F) := by
  simp only [ppuRead, toNat_and_ppuMask, ha]
  rw [if_neg (by omega), if_neg (by omega)]

theorem ppuWrite_of_pattern (h : a < 0x2000) (d : Byte) (s : State) :
    ppuWrite addr d s = s.setCart (chrWrite s.cart a d) := by
  simp only [ppuWrite, toNat_and_ppuMask, ha]
  rw [if_pos (by omega)]

theorem ppuWrite_of_nameTable (hlo : 0x2000 ≤ a) (hhi : a < 0x3F00) (d : Byte) (s : State) :
    ppuWrite addr d s = s.setPpu (s.ppu.ntWrite (ntSelect s.cart a) (a % 0x400) d) := by
  simp only [ppuWrite, toNat_and_ppuMask, ha]
  rw [if_neg (by omega), if_pos (by omega), show a &&& 0x03FF = a % 0x400 from
    Nat.and_two_pow_sub_one_eq_mod a 10]

theorem ppuWrite_of_palette (h : 0x3F00 ≤ a) (d : Byte) (s : State) :
    ppuWrite addr d s
      = s.setPpu { s.ppu with palette := s.ppu.palette.write (palIndex a) d } := by
  simp only [ppuWrite, toNat_and_ppuMask, ha]
  rw [if_neg (by omega), if_neg (by omega)]

end PpuSpace

theorem ntSelect_of_vertical {c : Cartridge} (h : c.mirroring = .vertical) (a : Nat) :
    ntSelect (some c) a = a % 0x1000 / 0x400 % 2 := by
  rw [ntSelect_eq, verticalMirroring, h]; rfl

theorem ntSelect_of_horizontal {c : Cartridge} (h : c.mirroring = .horizontal) (a : Nat) :
    ntSelect (some c) a = a % 0x1000 / 0x800 := by
  rw [ntSelect_eq, verticalMirroring, h]; rfl

/-- Settles O49: the three ranges of the PPU's address space; the table by the mirroring, the palette entry
by the fold. -/
theorem mirroringAndFolding : Obligations.MirroringAndFolding := by
  intro c p addr a
  refine ⟨fun hlo hhi => ?_, fun h => ?_, fun h => ppuRead_of_pattern rfl h (some c) p⟩
  · rw [ppuRead_of_nameTable rfl hlo hhi, Ppu.ntRead]
    cases hm : c.mirroring with
    | vertical => rw [ntSelect_of_vertical hm]
    | horizontal => rw [ntSelect_of_horizontal hm]
  · rw [ppuRead_of_palette rfl h, palIndex_eq]; rfl

end Sys2Proof.Machine

namespace Sys2Proof.Machine

open Sys2Proof

/-! ### A write of the data port (R329) -/

/-- A PPU write changes the PPU's memories and the cartridge alone (R104). -/
theorem ppuWrite_frame (addr : Word) (d : Byte) (s : State) :
    (ppuWrite addr d s).ppu
        = { s.ppu with
            nt0 := (ppuWrite addr d s).ppu.nt0, nt1 := (ppuWrite addr d s).ppu.nt1
            palette := (ppuWrite addr d s).ppu.palette } ∧
      (ppuWrite addr d s).cpu = s.cpu ∧ (ppuWrite addr d s).ram = s.ram ∧
      (ppuWrite addr d s).mem = s.mem ∧ (ppuWrite addr d s).sysClock = s.sysClock ∧
      (ppuWrite addr d s).params = s.params := by
  simp only [ppuWrite, Ppu.ntWrite]
  split_ifs <;> exact ⟨rfl, rfl, rfl, rfl, rfl, rfl⟩

theorem Ppu.ntWrite_withBus (p : Ppu) (k i : Nat) (d b : Byte) :
    ({ p with ppuBus := b } : Ppu).ntWrite k i d = { p.ntWrite k i d with ppuBus := b } := by
  unfold Ppu.ntWrite
  split_ifs <;> rfl

/-- A PPU write neither looks at the open-bus latch nor changes it. -/
theorem ppuWrite_withBus (addr : Word) (d b : Byte) (s : State) :
    ppuWrite addr d (s.setPpu { s.ppu with ppuBus := b })
      = (ppuWrite addr d s).setPpu { (ppuWrite addr d s).ppu with ppuBus := b } := by
  by_cases hlow : addr.toNat % 0x4000 < 0x2000
  · rw [ppuWrite_of_pattern rfl hlow, ppuWrite_of_pattern rfl hlow]; rfl
  by_cases hhigh : 0x3F00 ≤ addr.toNat % 0x4000
  · rw [ppuWrite_of_palette rfl hhigh, ppuWrite_of_palette rfl hhigh]; rfl
  · rw [ppuWrite_of_nameTable rfl (not_lt.mp hlow) (not_le.mp hhigh),
      ppuWrite_of_nameTable rfl (not_lt.mp hlow) (not_le.mp hhigh)]
    exact congrArg s.setPpu (Ppu.ntWrite_withBus s.ppu _ _ d b)

/-- What a write of `d` at 0x2007 does to the PPU but for its memories: the open-bus latch takes `d`, and
`v` goes up (R321, R327). -/
def Ppu.dataPortWritten (d : Byte) (p : Ppu) : Ppu :=
  { p with ppuBus := d, v := p.v + (if p.ctrl.getLsbD 2 then 32 else 1) }

/-- A write of the data port is a PPU write at `v`, with the latch and `v` (R329). -/
theorem memWrite_dataPort (d : Byte) (s : State) :
    memWrite 0x2007 d s
      = (ppuWrite (s.ppu.v.setWidth 16) d s).setPpu
          ((ppuWrite (s.ppu.v.setWidth 16) d s).ppu.dataPortWritten d) :=
  congrArg (fun u => u.setPpu (incV u.ppu)) (ppuWrite_withBus (s.ppu.v.setWidth 16) d d s)

/-! ### What a PPU write changes, by the range of its address -/

section PpuWrite

variable {s : State} {addr : Word} {a : Nat} (d : Byte) (ha : addr.toNat % 0x4000 = a)

theorem Ppu.ntRead_ntWrite {p : Ppu} (hp : p.Ok) (k i : Nat) : (p.ntWrite k i d).ntRead k i = d := by
  unfold Ppu.ntWrite Ppu.ntRead
  by_cases hk : k = 0
  · simp only [if_pos hk, Memory.read_write hp.nt0Wf, if_true]
  · simp only [if_neg hk, Memory.read_write hp.nt1Wf, if_true]

/-- A name-table write leaves the table it does not select. -/
theorem Ppu.ntWrite_otherTable (p : Ppu) (k i : Nat) :
    if k = 0 then (p.ntWrite k i d).nt1 = p.nt1 else (p.ntWrite k i d).nt0 = p.nt0 := by
  unfold Ppu.ntWrite
  split <;> rfl

/-- A name-table write changes one byte of one table. -/
theorem Ppu.ntWrite_cells {p : Ppu} (hp : p.Ok) (k i : Nat) :
    ((p.ntWrite k i d).nt1 = p.nt1 ∧
        ∀ j, (p.ntWrite k i d).nt0.read j = if j = i then d else p.nt0.read j) ∨
      ((p.ntWrite k i d).nt0 = p.nt0 ∧
        ∀ j, (p.ntWrite k i d).nt1.read j = if j = i then d else p.nt1.read j) := by
  unfold Ppu.ntWrite
  split
  · exact .inl ⟨rfl, fun j => Memory.read_write hp.nt0Wf i j d⟩
  · exact .inr ⟨rfl, fun j => Memory.read_write hp.nt1Wf i j d⟩

theorem Ppu.ntWrite_palette (p : Ppu) (k i : Nat) : (p.ntWrite k i d).palette = p.palette := by
  unfold Ppu.ntWrite
  split <;> rfl

include ha

/-- A byte written in the name-table range reads back (R102). -/
theorem ppuRead_ppuWrite_of_nameTable (hp : s.ppu.Ok) (hlo : 0x2000 ≤ a) (hhi : a < 0x3F00) :
    ppuRead (ppuWrite addr d s).cart (ppuWrite addr d s).ppu addr = d := by
  rw [ppuRead_of_nameTable ha hlo hhi, ppuWrite_of_nameTable ha hlo hhi]
  exact Ppu.ntRead_ntWrite d hp _ _

/-- A byte written in the palette range reads back, masked (R103). -/
theorem ppuRead_ppuWrite_of_palette (hp : s.ppu.Ok) (h : 0x3F00 ≤ a) :
    ppuRead (ppuWrite addr d s).cart (ppuWrite addr d s).ppu addr
      = d &&& (if s.ppu.grayscale then 0x30 else 0x3F) := by
  rw [ppuRead_of_palette ha h, ppuWrite_of_palette ha h]
  show Memory.read (Memory.write s.ppu.palette (palIndex a) d) (palIndex a) &&& _ = _
  rw [Memory.read_write hp.paletteWf, if_pos rfl]; rfl

end PpuWrite

/-- A CHR write changes one byte of CHR RAM, and nothing of a cartridge with CHR ROM (R98). -/
theorem chrWrite_cells {c : Cartridge} (hc : c.Ok) (a : Nat) (d : Byte) :
    ∃ c', chrWrite (some c) a d = some c' ∧ c' = { c with chr := c'.chr } ∧
      (c.chrBanks = 0 → c'.chr.read a = d ∧ ∀ k, k ≠ a → c'.chr.read k = c.chr.read k) ∧
      (c.chrBanks ≠ 0 → c' = c) := by
  by_cases hram : c.chrBanks = 0
  · refine ⟨{ c with chr := c.chr.write a d }, congrArg some (if_pos hram), rfl,
      fun _ => ⟨?_, fun k hk => ?_⟩, fun hrom => absurd hram hrom⟩
    · exact (Memory.read_write hc.chrWf a a d).trans (if_pos rfl)
    · exact (Memory.read_write hc.chrWf a k d).trans (if_neg hk)
  · exact ⟨c, congrArg some (if_neg hram), rfl, fun h => absurd h hram, fun _ => rfl⟩

/-- Settles O48: the write is a PPU write at `v` (`memWrite_dataPort`); what it reaches, by the range of
the address. -/
theorem dataPortWrites : Obligations.DataPortWrites := by
  intro s d hok t addr a
  have hp := hok.ppu
  have ha : addr.toNat % 0x4000 = a :=
    congrArg (· % 0x4000) (BitVec.toNat_setWidth_of_le (by decide))
  have ht : t = (ppuWrite addr d s).setPpu ((ppuWrite addr d s).ppu.dataPortWritten d) :=
    memWrite_dataPort d s
  obtain ⟨hppu, hcpu, hram, hmem, hclock, hparams⟩ := ppuWrite_frame addr d s
  rw [ht]
  refine ⟨?_, ?_, hcpu, hram, hmem, hclock, hparams, fun hlo hhi => ?_, fun h => ?_, fun h => ?_⟩
  · rw [State.setPpu_ppu, Ppu.dataPortWritten, hppu]
  · rw [State.setPpu_ppu, Ppu.dataPortWritten, hppu]
  · refine ⟨ppuRead_ppuWrite_of_nameTable d ha hp hlo hhi, ?_⟩
    rw [ppuWrite_of_nameTable ha hlo hhi]
    refine ⟨rfl, Ppu.ntWrite_palette d _ _ _, Ppu.ntWrite_cells d hp _ _, fun c hc => ?_⟩
    have hother := Ppu.ntWrite_otherTable d s.ppu (ntSelect s.cart a) (a % 0x400)
    refine ⟨fun hm => ?_, fun hm => ?_⟩
    · have hsel : ntSelect s.cart a = a / 0x400 % 2 := by
        rw [hc, ntSelect_of_vertical hm]; omega
      rw [← hsel]; exact hother
    · have hsel : ntSelect s.cart a = a / 0x800 % 2 := by
        rw [hc, ntSelect_of_horizontal hm]; omega
      rw [← hsel]; exact hother
  · refine ⟨ppuRead_ppuWrite_of_palette d ha hp h, ?_⟩
    rw [ppuWrite_of_palette ha h, ← palIndex_eq]
    exact ⟨rfl, rfl, rfl, fun k => Memory.read_write hp.paletteWf _ k d⟩
  · rw [ppuWrite_of_pattern ha h]
    refine ⟨rfl, rfl, rfl, fun c hc => ?_⟩
    obtain ⟨c', hc', hcells⟩ := chrWrite_cells (hok.cart c hc) a d
    exact ⟨c', by rw [← hc', ← hc]; rfl, hcells⟩

end Sys2Proof.Machine

namespace Sys2Proof.Machine

open Sys2Proof

/-!
PROOFS of the statements on 30_encoding.md. An encoding is an opcode byte followed by the operand bytes of
its mode (R121). The decoder reads exactly such a list (`decode_append`, `exists_of_decode`); the operand
bytes of a form and the form itself determine each other; and the table of R127 and the Encoding lines of
R180 to R278 give each other's opcode bytes (`TableEntry.everyInstruction`, `opcodeOf_instrOf`).
-/

/-! ### Operand bytes and operand forms -/

theorem operandLength_le_two (m : Mode) : operandLength m ≤ 2 := by cases m <;> decide

theorem length_operandBytes (o : Operand) : (operandBytes o).length = operandLength o.mode := by
  cases o <;> rfl

/-- The operand bytes of a form give the form back (R121, R125). -/
theorem mkOperand_operandBytes (o : Operand) :
    mkOperand o.mode ((operandBytes o).getD 0 0) ((operandBytes o).getD 1 0) = o := by
  cases o with
  | abs w | abx w | aby w | ind w => simp [Operand.mode, operandBytes, mkOperand]
  | imp | imm | zp0 | zpx | zpy | rel | izx | izy => rfl

/-- As many bytes as a mode has are the operand bytes of the form they make (R121, R125). -/
theorem operandBytes_mkOperand {m : Mode} {ops : List Byte} (h : ops.length = operandLength m) :
    operandBytes (mkOperand m (ops.getD 0 0) (ops.getD 1 0)) = ops := by
  cases m with
  | imp => rw [List.length_eq_zero_iff.mp h]; rfl
  | imm | zp0 | zpx | zpy | rel | izx | izy =>
    obtain ⟨b, rfl⟩ := List.length_eq_one_iff.mp h
    rfl
  | abs | abx | aby | ind =>
    obtain ⟨b1, b2, rfl⟩ := List.length_eq_two.mp h
    simp [mkOperand, operandBytes]

theorem mode_mkOperand (m : Mode) (b1 b2 : Byte) : (mkOperand m b1 b2).mode = m := by
  cases m <;> rfl

/-! ### The instruction of an opcode byte -/

/-- The table has only the forms that the Encoding lines list (R127, R180 to R278). -/
theorem mode_mem_legalModes : ∀ op : Byte, (table op).mode ∈ legalModes (table op).op := by decide

/-- The Encoding lines give an entry of the table its own opcode byte (R127, R180 to R278). -/
theorem lookup_opcodeForms_table : ∀ op : Byte, (table op).op ≠ .invalid →
    (opcodeForms (table op).op).lookup (table op).mode = some op := by decide

/-- The INVALID entries of the table are at the 105 bytes of R128. -/
theorem isInvalidOpcode_of_table : ∀ op : Byte, (table op).op = .invalid →
    isInvalidOpcode op = true := by decide

theorem op_mkInstr (e : Entry) (op b1 b2 : Byte) : (mkInstr e op b1 b2).op = e.op := by
  obtain ⟨tag, m, n⟩ := e
  cases tag <;> rfl

/-- An entry of a legal form makes an instruction with the operand of its mode; only BRK drops its operand
byte (R120, D11). -/
theorem operand_mkInstr {e : Entry} (h : e.mode ∈ legalModes e.op) (op b1 b2 : Byte) :
    (mkInstr e op b1 b2).operand = if e.op = .brk then .imm 0 else mkOperand e.mode b1 b2 := by
  obtain ⟨tag, m, n⟩ := e
  cases tag with
  | lda | ldx | ldy | sta | stx | sty | adc | sbc | and | eor | ora | bit | cmp | cpx | cpy | inc | dec
  | asl | lsr | rol | ror | jmp | brk => rfl
  | _ =>
    obtain rfl : m = _ := List.mem_singleton.mp h
    rfl

theorem mode_mkInstr {e : Entry} (h : e.mode ∈ legalModes e.op) (op b1 b2 : Byte) :
    (mkInstr e op b1 b2).mode = e.mode := by
  rw [Instr.mode, operand_mkInstr h]
  split
  · rw [‹e.op = .brk›] at h
    exact (List.mem_singleton.mp h).symm
  · exact mode_mkOperand e.mode b1 b2

theorem op_instrOf (op b1 b2 : Byte) : (instrOf op b1 b2).op = (table op).op := op_mkInstr _ op b1 b2

theorem mode_instrOf (op b1 b2 : Byte) : (instrOf op b1 b2).mode = (table op).mode :=
  mode_mkInstr (mode_mem_legalModes op) op b1 b2

/-- Outside the INVALID set the opcode byte is the one the Encoding lines list (R180 to R277). -/
theorem opcodeOf_of_ne_invalid {i : Instr} (h : i.op ≠ .invalid) :
    opcodeOf i = (opcodeForms i.op).lookup i.mode := by
  cases i with
  | invalid => exact absurd rfl h
  | _ => rfl

/-- The instruction of an opcode byte has that opcode byte. -/
theorem opcodeOf_instrOf (op b1 b2 : Byte) : opcodeOf (instrOf op b1 b2) = some op := by
  by_cases h : (table op).op = .invalid
  · have hi : instrOf op b1 b2 = .invalid op := by rw [instrOf, mkInstr, h]
    rw [hi]
    exact if_pos (isInvalidOpcode_of_table op h)
  · rw [opcodeOf_of_ne_invalid (by rwa [op_instrOf]), op_instrOf, mode_instrOf]
    exact lookup_opcodeForms_table op h

theorem wellFormed_instrOf (op b1 b2 : Byte) : (instrOf op b1 b2).WellFormed :=
  wellFormed_of_opcodeOf (opcodeOf_instrOf op b1 b2)

/-- An entry with the operation and the mode of an instruction makes it again of its operand bytes. -/
theorem mkInstr_operandBytes {i : Instr} {op : Byte} (h : opcodeOf i = some op) (base : Nat) :
    mkInstr ⟨i.op, i.mode, base⟩ op ((operandBytes i.operand).getD 0 0)
      ((operandBytes i.operand).getD 1 0) = i := by
  have ho := mkOperand_operandBytes i.operand
  cases i with
  | lda o | ldx o | ldy o | sta o | stx o | sty o | adc o | sbc o | and o | eor o | ora o | bit o | cmp o
  | cpx o | cpy o | inc o | dec o | asl o | lsr o | rol o | ror o | jmp o => exact congrArg _ ho
  | jsr w => exact congrArg Instr.jsr (word16_hiByte_loByte w)
  | invalid b =>
    obtain ⟨-, hb⟩ := Option.ite_none_right_eq_some.mp h
    exact congrArg Instr.invalid (Option.some.inj hb).symm
  | _ => rfl

/-- The opcode byte and the operand bytes of an instruction make it again. -/
theorem instrOf_operandBytes {i : Instr} {op : Byte} (h : opcodeOf i = some op) :
    instrOf op ((operandBytes i.operand).getD 0 0) ((operandBytes i.operand).getD 1 0) = i := by
  obtain ⟨op', hop, htag, hmode⟩ :=
    Laws.TableEntry.everyInstruction i (wellFormed_of_opcodeOf h)
  obtain rfl : op' = op := Option.some.inj (hop.symm.trans h)
  have hentry : table op' = ⟨i.op, i.mode, (table op').base⟩ := by rw [← htag, ← hmode]
  rw [instrOf, hentry]
  exact mkInstr_operandBytes h _

/-! ### What the decoder reads -/

/-- An opcode byte and as many operand bytes as its mode has decode, whatever follows (R126, R129). -/
theorem decode_append {op : Byte} {ops : List Byte} (h : ops.length = operandLength (table op).mode)
    (rest : List Byte) :
    decode (op :: (ops ++ rest)) = .ok (instrOf op (ops.getD 0 0) (ops.getD 1 0), rest) := by
  have hle := operandLength_le_two (table op).mode
  match ops with
  | [] | [b1] | [b1, b2] => simp [decode, ← h]
  | b1 :: b2 :: b3 :: more => simp only [← h, List.length_cons] at hle; omega

/-- The decoder reads nothing else (R126, R129). -/
theorem exists_of_decode {bytes rest : List Byte} {i : Instr} (h : decode bytes = .ok (i, rest)) :
    ∃ op ops, bytes = op :: (ops ++ rest) ∧ ops.length = operandLength (table op).mode
      ∧ i = instrOf op (ops.getD 0 0) (ops.getD 1 0) := by
  cases bytes with
  | nil => cases h
  | cons op bs =>
    unfold decode at h
    dsimp only at h
    split at h
    next hn => cases h; exact ⟨op, [], rfl, hn.symm, rfl⟩
    next b1 _ hn => cases h; exact ⟨op, [b1], rfl, hn.symm, rfl⟩
    next b1 b2 _ hn => cases h; exact ⟨op, [b1, b2], rfl, hn.symm, rfl⟩
    next => cases h

theorem encode_of_opcodeOf {i : Instr} {op : Byte} (h : opcodeOf i = some op) :
    encode i = op :: operandBytes i.operand := by
  simp only [encode, h]

/-! ### The statements -/

/-- Settles O1: the encoding is an opcode byte with the operand bytes of its table entry's mode, which the
decoder reads (`decode_append`) and makes the instruction of again (`instrOf_operandBytes`). -/
theorem decodeOfEncodeIsTheInstruction : Obligations.DecodeOfEncodeIsTheInstruction := by
  intro i rest hi
  obtain ⟨op, hop, -, hmode⟩ := Laws.TableEntry.everyInstruction i hi
  have hlen : (operandBytes i.operand).length = operandLength (table op).mode := by
    rw [length_operandBytes, hmode, Instr.mode]
  rw [encode_of_opcodeOf hop, List.cons_append, decode_append hlen, instrOf_operandBytes hop]

/-- Settles O2: the decoder has read an opcode byte and the operand bytes of its mode (`exists_of_decode`),
and all but BRK's are the bytes of the instruction it makes of them (`operandBytes_mkOperand`). -/
theorem encodeOfDecodeIsTheBytes : Obligations.EncodeOfDecodeIsTheBytes := by
  intro bytes rest i h
  obtain ⟨op, ops, rfl, hlen, rfl⟩ := exists_of_decode h
  have hop := opcodeOf_instrOf op (ops.getD 0 0) (ops.getD 1 0)
  refine ⟨wellFormed_instrOf op _ _, fun hne => ?_, fun hbrk => ?_⟩
  · have hentry : (table op).op ≠ .brk := fun hb => hne (by rw [instrOf, mkInstr, hb])
    rw [encode_of_opcodeOf hop, instrOf, operand_mkInstr (mode_mem_legalModes op), if_neg hentry,
      operandBytes_mkOperand hlen, List.cons_append]
  · rw [hbrk] at hop
    obtain rfl : 0x00 = op := Option.some.inj hop
    obtain ⟨pad, rfl⟩ := List.length_eq_one_iff.mp hlen
    exact ⟨pad, rfl⟩

/-- Settles O3: the decoder takes from the two bytes what the entry's mode needs (`decode_append`), and the
instruction it makes has the entry's operation and mode and the opcode byte (`opcodeOf_instrOf`). -/
theorem everyOpcodeByteDecodes : Obligations.EveryOpcodeByteDecodes := by
  intro op b1 b2
  have hle := operandLength_le_two (table op).mode
  have hlen : ([b1, b2].take (operandLength (table op).mode)).length = operandLength (table op).mode := by
    rw [List.length_take]; exact min_eq_left hle
  have hdec := decode_append hlen ([b1, b2].drop (operandLength (table op).mode))
  rw [List.take_append_drop] at hdec
  refine ⟨_, _, hdec, wellFormed_instrOf op _ _, op_instrOf op _ _, mode_instrOf op _ _,
    opcodeOf_instrOf op _ _, ?_⟩
  rw [Instr.length, mode_instrOf, List.length_drop, List.length_cons, List.length_cons, List.length_nil]
  omega

/-- Settles O4: the decoder run on ten closed words. -/
theorem sampleWordsDecode : Obligations.SampleWordsDecode := by
  unfold Obligations.SampleWordsDecode
  decide

/-- An instruction without operand and without action changes PC, the cycle count, U and latches alone
(R140, R142, R143). -/
theorem exec_idle {i : Instr} (hi : i.WellFormed) (himp : i.operand = .imp)
    (hread : operandReaders.contains i.op = false) (hidle : ∀ v, action i v = v) (s : State) :
    ∃ t, exec i s = .next t ∧ t.cpu.pc = s.cpu.pc + 1 ∧ t.cpu.cycles = baseOf i s
      ∧ Regs t s.cpu.a s.cpu.x s.cpu.y s.cpu.sp (statusU s.cpu.p) ∧ SameSystem s t := by
  have hmode : i.operand.mode ≠ .ind := by rw [himp]; decide
  obtain ⟨op, hop, -, -, hrun⟩ := runEntry_plain hi hmode (acceptsPageCross.contains i.op)
    (fun u => action i (fetchIfReader i u)) s
  rw [← exec_eq_runEntry, fetchIfReader, hread, if_neg Bool.false_ne_true, hidle, himp] at hrun
  refine ⟨_, hrun, ?_, ?_, ⟨rfl, rfl, rfl, rfl, forced_status s.cpu.p⟩,
    ⟨rfl, rfl, rfl, rfl, rfl, rfl⟩⟩
  · exact BitVec.add_zero (s.cpu.pc + 1)
  · exact (baseOf_eq hi hop s).symm

/-- Settles O36: neither NOP nor an INVALID byte has an operand or an action (`exec_idle`). -/
theorem nopAndInvalidDoNothing : Obligations.NopAndInvalidDoNothing := fun s =>
  ⟨exec_idle rfl rfl rfl (fun _ => rfl) s,
    fun op hop => exec_idle (i := .invalid op) (isInvalidOpcode_of_table op hop) rfl rfl (fun _ => rfl) s⟩

end Sys2Proof.Machine

namespace Sys2Proof.Machine

open Sys2Proof

/-!
PROOFS of the statements on 40_pipeline_addressing.md. An instruction is its action in its frame
(`exec_of_wellFormed`), so its PC and its cycles are what the mode routine leaves and what the action adds;
D is carried through the frame and through every action that does not write it.
-/

/-! ### PC and cycles of an instruction -/

/-- PC past the instruction's bytes, where its action begins (R120, R149). -/
theorem resolvedCpu_pc (op : Byte) (i : Instr) (s : State) :
    (resolvedCpu op i.operand s).pc = s.cpu.pc + BitVec.ofNat 16 i.length := by
  rw [Instr.length, BitVec.ofNat_add, ← BitVec.add_assoc]; rfl

/-- Only the control transfers change PC in their action (R165). -/
theorem action_pc {i : Instr} (h : controlTransfers.contains i.op = false) (v : State) :
    (action i v).cpu.pc = v.cpu.pc := by
  cases i with
  | bcc | bcs | beq | bne | bmi | bpl | bvc | bvs | jmp | jsr | rts | brk | rti => exact nomatch h
  | _ => simp [action, putAlu, finishShift]

/-- Settles O8: the mode routine leaves PC past the instruction's bytes (`resolvedCpu_pc`), and neither the
action (`action_pc`) nor the end of the frame moves it. -/
theorem pcAdvancesByTheLength : Obligations.PcAdvancesByTheLength := by
  intro i s hi hctl
  obtain ⟨op, v, -, -, hv, ht⟩ := exec_of_wellFormed hi s
  refine ⟨_, ht, ?_⟩
  calc (action i v).cpu.pc
      = v.cpu.pc := action_pc hctl v
    _ = (resolvedCpu op i.operand s).pc := by rw [hv]
    _ = s.cpu.pc + BitVec.ofNat 16 i.length := resolvedCpu_pc op i s

/-- An action adds cycles only where it is a branch that is taken (R230). -/
theorem action_cycles (i : Instr) (v : State) :
    (action i v).cpu.cycles
      = if branchTaken i v.cpu.p then
          v.cpu.cycles + 1 + (otherPage v.cpu.pc (v.cpu.pc + v.cpu.addrRel)).toNat
        else v.cpu.cycles := by
  cases i with
  | bcc | bcs | beq | bne | bmi | bpl | bvc | bvs => rw [action, branch_cpu]; rfl
  | _ => simp [action, putAlu, finishShift, branchTaken, Instr.op]

/-- The extra cycles of a branch, as a sum (R230). -/
theorem branchExtra_of_rel {i : Instr} {r : Byte} (ho : i.operand = .rel r) (s : State) :
    branchExtra i s
      = if branchTaken i s.cpu.p then 1 + (otherPage (s.cpu.pc + 2) (branchTarget r s)).toNat else 0 := by
  rw [branchExtra, ho]
  dsimp only
  cases branchTaken i s.cpu.p with
  | false => rfl
  | true => cases otherPage (s.cpu.pc + 2) (branchTarget r s) <;> rfl

theorem branchExtra_of_not_rel {i : Instr} (h : i.operand.mode ≠ .rel) (s : State) :
    branchExtra i s = 0 := by
  rw [branchExtra]
  split
  next r ho => exact absurd (congrArg Operand.mode ho) h
  all_goals rfl

/-- The cycles when the action is done: the base count and what a taken branch adds (R142, R230). -/
theorem cycles_of_started {i : Instr} {op b : Byte} {s v : State} (hi : i.WellFormed)
    (hop : opcodeOf i = some op) (hv : v.cpu = { resolvedCpu op i.operand s with fetched := b }) :
    (action i v).cpu.cycles = baseOf i s + branchExtra i s := by
  rw [action_cycles, hv, baseOf_eq hi hop]
  dsimp only
  have htaken : branchTaken i (resolvedCpu op i.operand s).p = branchTaken i s.cpu.p :=
    branchTaken_forced i s.cpu.p
  rw [htaken, resolvedCpu_pc]
  cases ho : i.operand with
  | rel r =>
    have hlength : i.length = 2 := by rw [Instr.length, Instr.mode, ho]; rfl
    rw [branchExtra_of_rel ho, hlength]
    cases branchTaken i s.cpu.p with
    | false => rfl
    | true => exact Nat.add_assoc _ _ _
  | _ =>
    have hmode : i.operand.mode ≠ .rel := by simp [ho, Operand.mode]
    rw [branchTaken_of_not_rel hmode, branchExtra_of_not_rel hmode]; rfl

/-- A well-formed instruction runs, and costs what R142 adds up (R142, R143, R163). -/
theorem exec_completes {i : Instr} (hi : i.WellFormed) (s : State) :
    ∃ t, exec i s = .next t ∧ t.cpu.cycles = cyclesTotal i s ∧ flag t.cpu.p bitU = true := by
  obtain ⟨op, v, hop, -, hv, ht⟩ := exec_of_wellFormed hi s
  refine ⟨_, ht, ?_, unused_of_exec ht⟩
  rw [cyclesTotal, ← cycles_of_started hi hop hv]
  cases crossesPage i.operand s && acceptsPageCross.contains i.op <;> rfl

/-! ### The step -/

theorem step_of_cpuClock {s u : State} (hphase : s.sysClock % 3 = 0)
    (h : cpuClock (ppuClock s) = .next u) : step s = .next (endBusCall u) := by
  have hp : cpuPhase (ppuClock s) = true := beq_iff_eq.mpr hphase
  simp only [step, busClock, hp, if_true, h]

theorem step_of_not_phase {s : State} (hphase : s.sysClock % 3 ≠ 0) :
    step s = .next (endBusCall (ppuClock s)) := by
  have hp : cpuPhase (ppuClock s) = false := beq_eq_false_iff_ne.mpr hphase
  simp only [step, busClock, hp, Bool.false_eq_true, if_false]

theorem cpuClock_of_busy {s : State} (h : s.cpu.cycles ≠ 0) : cpuClock s = .next (countDown s) :=
  if_neg h

/-- At an instruction boundary a CPU clock runs the fetched instruction (R140). -/
theorem cpuClock_of_boundary {s t : State} (h : s.cpu.cycles = 0)
    (ht : exec (fetchInstr s).1 (fetchInstr s).2 = .next t) : cpuClock s = .next (countDown t) := by
  simp only [cpuClock, if_pos h, ht]

/-- What is fetched is an instruction (R126). -/
theorem wellFormed_fetchInstr (s : State) : (fetchInstr s).1.WellFormed := by
  unfold fetchInstr
  dsimp only
  split <;> exact wellFormed_instrOf _ _ _

/-- A bus call in the phase at a boundary: the fetched instruction runs (R140, R313). -/
theorem exists_step_of_boundary {s : State} (hphase : s.sysClock % 3 = 0) (hc : s.cpu.cycles = 0) :
    ∃ t, exec (fetchInstr (ppuClock s)).1 (fetchInstr (ppuClock s)).2 = .next t
      ∧ step s = .next (endBusCall (countDown t)) := by
  obtain ⟨t, ht, -⟩ := exec_completes (wellFormed_fetchInstr (ppuClock s)) (fetchInstr (ppuClock s)).2
  exact ⟨t, ht, step_of_cpuClock hphase (cpuClock_of_boundary hc ht)⟩

/-- Settles O6: outside the phase the CPU is not clocked; in it with cycles left its clock is the
countdown. -/
theorem stepWithoutFetch : Obligations.StepWithoutFetch := fun _ =>
  ⟨step_of_not_phase, fun hphase hc => step_of_cpuClock hphase (cpuClock_of_busy hc)⟩

/-- Settles O7: the frame and the action add up the cycles (`exec_completes`); a step counts down, or runs
an instruction, which completes. -/
theorem everyInstructionCompletesWithItsCycles : Obligations.EveryInstructionCompletesWithItsCycles := by
  refine ⟨fun i s hi => exec_completes hi s, fun s => ?_⟩
  by_cases hphase : s.sysClock % 3 = 0
  · by_cases hc : s.cpu.cycles = 0
    · obtain ⟨t, -, hstep⟩ := exists_step_of_boundary hphase hc
      exact ⟨_, hstep⟩
    · exact ⟨_, step_of_cpuClock hphase (cpuClock_of_busy hc)⟩
  · exact ⟨_, step_of_not_phase hphase⟩

theorem operandReads_le_two (op : Byte) : operandReads op ≤ 2 := by
  unfold operandReads
  split
  · exact Nat.zero_le 2
  · exact operandLength_le_two _

/-- What a fetch makes of the bytes it reads, where reading them changes nothing (R140, R147). -/
theorem fetchInstr_of_reads {s : State} {op : Byte} {ops : List Byte}
    (hlen : ops.length = operandReads op)
    (hread : ∀ k ≤ ops.length,
      memRead (s.cpu.pc + BitVec.ofNat 16 k) s = ((op :: ops).getD k 0, s)) :
    fetchInstr s = (instrOf op (ops.getD 0 0) (ops.getD 1 0), s) := by
  have hop : memRead s.cpu.pc s = (op, s) := by simpa using hread 0 (Nat.zero_le _)
  match ops with
  | [] => simp only [fetchInstr, hop, ← hlen]; rfl
  | [b1] =>
    have h1 : memRead (s.cpu.pc + 1) s = (b1, s) := hread 1 (by simp)
    simp only [fetchInstr, hop, ← hlen, h1]; rfl
  | [b1, b2] =>
    have h1 : memRead (s.cpu.pc + 1) s = (b1, s) := hread 1 (by simp)
    have h2 : memRead (s.cpu.pc + 2) s = (b2, s) := hread 2 (by simp)
    simp only [fetchInstr, hop, ← hlen, h1, h2]; rfl
  | b1 :: b2 :: b3 :: more =>
    have := operandReads_le_two op
    simp only [← hlen, List.length_cons] at this
    omega

/-- BRK is BRK whatever its padding byte (R242, D11). -/
theorem instrOf_of_brk {op : Byte} (h : (table op).op = .brk) (b1 b2 : Byte) :
    instrOf op b1 b2 = .brk := by
  rw [instrOf, mkInstr, h]

/-- Where reading its bytes changes nothing, a fetch gives the instruction that the bytes decode to
(R126, R140). -/
theorem fetchInstr_of_decode {s : State} {bytes rest : List Byte} {i : Instr}
    (hdec : decode bytes = .ok (i, rest))
    (hread : ∀ k < i.length, memRead (s.cpu.pc + BitVec.ofNat 16 k) s = (bytes.getD k 0, s)) :
    fetchInstr s = (i, s) := by
  obtain ⟨op, ops, rfl, hlen, rfl⟩ := exists_of_decode hdec
  rw [Instr.length, mode_instrOf, ← hlen] at hread
  by_cases hbrk : (table op).op = .brk
  · have hreads : operandReads op = 0 := if_pos hbrk
    rw [fetchInstr_of_reads (ops := []) hreads.symm fun k hk => ?_, instrOf_of_brk hbrk,
      instrOf_of_brk hbrk]
    obtain rfl : k = 0 := Nat.le_zero.mp hk
    exact hread 0 (by omega)
  · have hreads : operandReads op = operandLength (table op).mode := if_neg hbrk
    refine fetchInstr_of_reads (hlen.trans hreads.symm) fun k hk => ?_
    have hlt : k < (op :: ops).length := Nat.lt_succ_of_le hk
    rw [hread k (by omega), ← List.cons_append, List.getD_append _ _ _ _ hlt]

/-- Where none of its bytes lies in the PPU's window, the step fetches the instruction that they decode to,
and the PPU's clock does not change them (R80, R140). -/
theorem fetchInstr_ppuClock {s : State} {i : Instr} {rest : List Byte}
    (hdec : decode [peek s s.cpu.pc, peek s (s.cpu.pc + 1), peek s (s.cpu.pc + 2)] = .ok (i, rest))
    (hwin : ∀ k < i.length, inPpuWindow (s.cpu.pc + BitVec.ofNat 16 k) = false) :
    fetchInstr (ppuClock s) = (i, ppuClock s) := by
  refine fetchInstr_of_decode hdec fun k hk => Prod.ext ?_ (memRead_snd_of_not_window (hwin k hk) _)
  have hlt : k < 3 := hk.trans_le (Nat.add_le_add_left (operandLength_le_two i.mode) 1)
  rw [memRead_fst, ppuClock_cpu, peek_congr (hwin k hk) (ppuClock_ram s) (ppuClock_mem s)]
  interval_cases k
  · exact congrArg (peek s) (BitVec.add_zero s.cpu.pc)
  · rfl
  · rfl

/-- Settles O5: the CPU clock runs what it fetches (`exists_step_of_boundary`), which outside the PPU's
window is what the bytes at PC decode to (`fetchInstr_ppuClock`). -/
theorem stepRunsTheDecodedInstruction : Obligations.StepRunsTheDecodedInstruction := by
  intro s hphase hc
  obtain ⟨t, ht, hstep⟩ := exists_step_of_boundary hphase hc
  refine ⟨⟨t, wellFormed_fetchInstr _, ht, hstep⟩, fun i rest hdec hwin => ?_⟩
  have hwf := wellFormed_fetchInstr (ppuClock s)
  rw [fetchInstr_ppuClock hdec hwin] at ht hwf
  exact ⟨hwf, t, ht, hstep⟩

/-- Settles O44: a push is one RAM byte and SP (`push_eq`), a pop the byte above SP and SP (`pop_eq`), so
that a pop after a push reads at the index that was written. -/
theorem pushThenPop : Obligations.PushThenPop := by
  intro s b hram
  refine ⟨push_eq b s, pop_eq s, ?_, ?_⟩
  · rw [push_eq, pop_eq]
    show Memory.read (pushed1 s b) (256 + (s.cpu.sp - 1 + 1).toNat) = b
    rw [BitVec.sub_add_cancel, pushed1, Memory.read_write hram, if_pos rfl]
  · rw [pop_cpu, push_cpu]
    exact BitVec.sub_add_cancel s.cpu.sp 1

end Sys2Proof.Machine

namespace Sys2Proof.Machine

open Sys2Proof

/-! ### D in a status byte

No flag computation reads D or writes it: with another D in the status byte going in, it leaves the same
byte but for that D (R164). -/

section StatusByte

variable (p a m : Byte) (d : Bool)

/-- Another flag and D are written in either order. -/
theorem putBit_putD {k : Nat} (hk : k < 8) (hkd : k ≠ bitD) (on : Bool) :
    putBit (putBit p bitD d) k on = putBit (putBit p k on) bitD d := by
  obtain ⟨n, v, u, b, d', i, z, c, rfl⟩ := exists_packP p
  interval_cases k <;> first | exact absurd rfl hkd | simp

/-- Writing D hides the D that was there. -/
theorem putD_putD (on : Bool) : putBit (putBit p bitD d) bitD on = putBit p bitD on := by
  obtain ⟨n, v, u, b, d', i, z, c, rfl⟩ := exists_packP p
  simp

/-- Another flag does not depend on D. -/
theorem flag_putD {k : Nat} (hkd : k ≠ bitD) : flag (putBit p bitD d) k = flag p k :=
  flag_putBit_ne p bitD k d (by decide) hkd

/-- A result that goes with a status byte, with D replaced. -/
def Alu.putD (r : Alu) (d : Bool) : Alu := { r with status := putBit r.status bitD d }

theorem setZN_putD : setZN (putBit p bitD d) m = putBit (setZN p m) bitD d := by
  simp (disch := decide) only [setZN, putBit_putD]

theorem bitStatus_putD : bitStatus (putBit p bitD d) a m = putBit (bitStatus p a m) bitD d := by
  simp (disch := decide) only [bitStatus, putBit_putD]

theorem compareStatus_putD :
    compareStatus (putBit p bitD d) a m = putBit (compareStatus p a m) bitD d := by
  simp (disch := decide) only [compareStatus, putBit_putD, setZN_putD]

theorem adc_putD : adc (putBit p bitD d) a m = (adc p a m).putD d := by
  simp (disch := decide) only [adc, carryIn, flag_putD, putBit_putD, Alu.putD]
  rfl

theorem sbc_putD : sbc (putBit p bitD d) a m = (sbc p a m).putD d := by
  simp (disch := decide) only [sbc, carryIn, flag_putD, putBit_putD, Alu.putD]
  rfl

theorem asl_putD : asl (putBit p bitD d) m = (asl p m).putD d := by
  simp (disch := decide) only [asl, putBit_putD, setZN_putD, Alu.putD]

theorem lsr_putD : lsr (putBit p bitD d) m = (lsr p m).putD d := by
  simp (disch := decide) only [lsr, putBit_putD, setZN_putD, Alu.putD]

theorem rol_putD : rol (putBit p bitD d) m = (rol p m).putD d := by
  simp (disch := decide) only [rol, flag_putD, putBit_putD, setZN_putD, Alu.putD]

theorem ror_putD : ror (putBit p bitD d) m = (ror p m).putD d := by
  simp (disch := decide) only [ror, flag_putD, putBit_putD, setZN_putD, Alu.putD]

end StatusByte

/-! ### A flag of P on the way to and through an action

The bus, the stack, the mode routine and fetch() do not look at P: set before or after them, a flag is the
same. -/

section Carried

variable (s : State) (k : Nat) (on : Bool)

theorem withCpu_setFlag_cpu {s t : State} (h : t.cpu = s.cpu) :
    t.withCpu (s.setFlag k on).cpu = t.setFlag k on := by
  rw [State.setFlag, State.setFlag, h, State.setP, State.setP, h]

theorem memRead_setFlag (a : Word) :
    memRead a (s.setFlag k on) = ((memRead a s).1, (memRead a s).2.setFlag k on) := by
  rw [← withCpu_setFlag_cpu k on (memRead_cpu a s)]
  exact memRead_withCpu a s _

theorem memWrite_setFlag (a : Word) (b : Byte) :
    memWrite a b (s.setFlag k on) = (memWrite a b s).setFlag k on := by
  rw [← withCpu_setFlag_cpu k on (memWrite_cpu a b s)]
  exact memWrite_withCpu a b s _

theorem readPointer_setFlag (l h : Word) :
    readPointer l h (s.setFlag k on) = ((readPointer l h s).1, (readPointer l h s).2.setFlag k on) := by
  simp only [readPointer, memRead_setFlag]

theorem addrMode_setFlag (o : Operand) :
    addrMode o (s.setFlag k on) = (addrMode o s).setFlag k on := by
  cases o with
  | ind | izx | izy =>
    simp only [addrMode, effective, State.setFlag_x, readPointer_setFlag]; rfl
  | _ => rfl

theorem fetchOperand_setFlag (o : Operand) :
    fetchOperand o (s.setFlag k on) = (fetchOperand o s).setFlag k on := by
  cases o with
  | imp | imm => rfl
  | _ => simp only [fetchOperand, State.setFlag_addrAbs, memRead_setFlag]; rfl

theorem fetchIfReader_setFlag (i : Instr) :
    fetchIfReader i (s.setFlag k on) = (fetchIfReader i s).setFlag k on := by
  rw [fetchIfReader, fetchIfReader]
  split
  · exact fetchOperand_setFlag s k on i.operand
  · rfl

theorem crossesPage_setFlag (o : Operand) : crossesPage o (s.setFlag k on) = crossesPage o s :=
  crossesPage_withCpu o s (s.setFlag k on).cpu rfl rfl

theorem branch_setFlag (cond : Bool) :
    branch cond (s.setFlag k on) = (branch cond s).setFlag k on := by
  cases cond <;> rfl

theorem writeBack_setFlag (o : Operand) (r : Byte) :
    writeBack o r (s.setFlag k on) = (writeBack o r s).setFlag k on := by
  cases o with
  | imp => rfl
  | _ => exact memWrite_setFlag s k on _ r

/-- The write-back of a shift carries D, which its result carries too. -/
theorem finishShift_putD (o : Operand) (r : Alu) (d : Bool) :
    finishShift o (r.putD d) (s.setFlag bitD d) = (finishShift o r s).setFlag bitD d :=
  writeBack_setFlag (s.setP r.status) bitD d o r.result

end Carried

/-! ### D in an instruction -/

section Instruction

variable (d : Bool)

theorem beginInstr_setD (op : Byte) (s : State) :
    beginInstr op (s.setFlag bitD d) = (beginInstr op s).setFlag bitD d :=
  congrArg (fun p => s.withCpu { begunCpu op s with p := p })
    (putBit_putD s.cpu.p d (k := bitU) (by decide) (by decide) true)

theorem endInstr_setD (extra : Bool) (v : State) :
    endInstr extra (v.setFlag bitD d) = (endInstr extra v).setFlag bitD d :=
  congrArg (fun p => v.withCpu { endedCpu extra v.cpu with p := p })
    (putBit_putD v.cpu.p d (k := bitU) (by decide) (by decide) true)

/-- An action that neither pushes P nor writes D leaves the D it found, and does nothing else with it
(R30, R164). -/
theorem action_setD {i : Instr} (hphp : i.op ≠ .php) (hbrk : i.op ≠ .brk) (h : writesD i = false)
    (v : State) : action i (v.setFlag bitD d) = (action i v).setFlag bitD d := by
  cases i with
  | php => exact absurd rfl hphp
  | brk => exact absurd rfl hbrk
  | cld | sed | plp | rti => exact nomatch h
  | sta | stx | sty => exact memWrite_setFlag v bitD d _ _
  | inc | dec =>
    simp only [action, State.setFlag_addrAbs, State.setFlag_fetched, memWrite_setFlag, State.setFlag_p,
      setZN_putD]; rfl
  | adc => simp only [action, State.setFlag_p, adc_putD]; rfl
  | sbc => simp only [action, State.setFlag_p, sbc_putD]; rfl
  | bit => simp only [action, State.setFlag_p, bitStatus_putD]; rfl
  | cmp | cpx | cpy => simp only [action, State.setFlag_p, compareStatus_putD]; rfl
  | asl => simp only [action, State.setFlag_p, asl_putD]; exact finishShift_putD v _ _ d
  | lsr => simp only [action, State.setFlag_p, lsr_putD]; exact finishShift_putD v _ _ d
  | rol => simp only [action, State.setFlag_p, rol_putD]; exact finishShift_putD v _ _ d
  | ror => simp only [action, State.setFlag_p, ror_putD]; exact finishShift_putD v _ _ d
  | bcc | bcs | beq | bne | bmi | bpl | bvc | bvs =>
    rw [action, action, ← branch_setFlag, State.setFlag_p,
      flag_putD _ _ (by decide)]
  | jsr => simp only [action, pushWord_eq]; rfl
  | rts => simp only [action, popWord_eq]; rfl
  | pha => simp only [action, push_eq]; rfl
  | pla => simp only [action, pop_eq, State.setSp_p, State.setFlag_p, setZN_putD]; rfl
  | clc | sec | cli | sei | clv =>
    exact congrArg v.setP (putBit_putD v.cpu.p d (by decide) (by decide) _)
  | jmp | txs | nop | invalid => rfl
  | lda | ldx | ldy | and | eor | ora | inx | iny | dex | dey | tax | tay | tsx | txa | tya =>
    simp only [action, State.setFlag_p, setZN_putD]; rfl

/-- What an action that writes D leaves does not depend on the D it found (R263, R265, R269, R243). -/
theorem action_of_writesD {i : Instr} (h : writesD i = true) (v : State) :
    action i (v.setFlag bitD d) = action i v := by
  cases i with
  | cld | sed => exact congrArg v.setP (putD_putD v.cpu.p d _)
  | plp => rw [action, action, pop_eq, pop_eq]; rfl
  | rti => rw [action, action, returnFromInterrupt_eq, returnFromInterrupt_eq]; rfl
  | _ => exact nomatch h

end Instruction

/-- The state in which the action of an instruction begins: its frame, its mode and its fetch() done
(R140). -/
def actionStart (i : Instr) (op : Byte) (s : State) : State :=
  fetchIfReader i (addrMode i.operand (beginInstr op s))

theorem actionStart_setD (i : Instr) (op : Byte) (s : State) (d : Bool) :
    actionStart i op (s.setFlag bitD d) = (actionStart i op s).setFlag bitD d := by
  rw [actionStart, beginInstr_setD, addrMode_setFlag, fetchIfReader_setFlag, actionStart]

/-- An instruction of the machine, at its opcode byte: what its frame makes of its action (R140). -/
theorem exec_of_opcodeOf {i : Instr} {op : Byte} (h : opcodeOf i = some op) (s : State) :
    exec i s
      = .next (endInstr (crossesPage i.operand s && acceptsPageCross.contains i.op)
          (action i (actionStart i op s))) := by
  obtain ⟨op', hop, -, -, hrun⟩ := runEntry_next (wellFormed_of_opcodeOf h)
    (acceptsPageCross.contains i.op) (fun u => action i (fetchIfReader i u)) s
  obtain rfl : op = op' := Option.some.inj (h.symm.trans hop)
  exact (exec_eq_runEntry i s).trans hrun

/-- Settles O22: the frame carries D (`actionStart_setD`, `endInstr_setD`); the action carries it too
(`action_setD`), or writes its own (`action_of_writesD`). -/
theorem decimalFlagHasNoEffect : Obligations.DecimalFlagHasNoEffect := by
  intro i s d hi hphp hbrk
  obtain ⟨op, hop, -⟩ := Laws.TableEntry.everyInstruction i hi
  refine ⟨_, exec_of_opcodeOf hop s, fun h => ?_, fun h => ?_⟩
  all_goals rw [exec_of_opcodeOf hop, crossesPage_setFlag, actionStart_setD]
  · rw [action_setD d hphp hbrk h, endInstr_setD]
  · rw [action_of_writesD d h]

end Sys2Proof.Machine

namespace Sys2Proof.Machine

open Sys2Proof

/-!
PROOFS of the statements on 41_load_store.md. A load is its one operand read with CPU registers set after it
(`exec_reader`); a store is its one bus write at the effective address, in its frame (`exec_store`).
-/

/-! ### States that differ in the CPU alone -/

/-- The system is all of a state but its CPU. -/
theorem sameSystem_withCpu (s : State) (c : Cpu) : SameSystem s (s.withCpu c) :=
  ⟨rfl, rfl, rfl, rfl, rfl, rfl⟩

/-- An operand read changes no byte of memory (R81). -/
theorem sameBytes_afterOperandRead (o : Operand) (s : State) (c : Cpu) :
    SameBytes s ((afterOperandRead o s).withCpu c) :=
  SameBytes.of_eq (afterOperandRead_ram o s) (afterOperandRead_mem o s)

/-- A bus write stores its byte, whatever the CPU's registers are then (R72, R73, R77). -/
theorem stored_memWrite {s : State} (hram : s.ram.wf = true) (hmem : s.mem.wf = true) (ea : Word) (d : Byte)
    (c : Cpu) : Stored s ((memWrite ea d s).withCpu c) ea d := by
  obtain ⟨hbytes, -, -⟩ := busWritesChangeOneByte s ea d hram hmem
  refine ⟨sameSystem_withCpu _ c, fun a ha => ?_⟩
  rw [peek_withCpu, hbytes a ha]

/-! ### The state in which an action begins -/

/-- After fetch(): the operand byte in `fetched`, and what the one read did to a PPU port (R141). -/
theorem actionStart_of_reader {i : Instr} (hi : i.WellFormed) (hr : operandReaders.contains i.op = true)
    (op : Byte) (s : State) :
    actionStart i op s = (afterOperandRead i.operand s).withCpu (fetchedCpu op i.operand s) := by
  obtain ⟨hind, hrel⟩ := mode_of_reader hi hr
  rw [actionStart, fetchIfReader, if_pos hr, fetchOperand_addrMode op s hind hrel]

/-- Without a fetch(), in every mode but IND, nothing outside the CPU has changed (R148). -/
theorem actionStart_of_not_reader {i : Instr} (hr : operandReaders.contains i.op = false)
    (hind : i.operand.mode ≠ .ind) (op : Byte) (s : State) :
    actionStart i op s = s.withCpu (resolvedCpu op i.operand s) := by
  rw [actionStart, fetchIfReader, hr, if_neg Bool.false_ne_true, addrMode_beginInstr' op s hind]

/-! ### Loads -/

/-- An operation that reads its operand and then sets CPU registers alone: the system is that after the
operand read, and the CPU is the action's, in its frame (R140, R141). -/
theorem exec_reader {i : Instr} (hi : i.WellFormed) (hr : operandReaders.contains i.op = true)
    (hcpu : ∀ v, action i v = v.withCpu (action i v).cpu) (s : State) :
    ∃ op extra, exec i s = .next ((afterOperandRead i.operand s).withCpu
      (endedCpu extra
        (action i ((afterOperandRead i.operand s).withCpu (fetchedCpu op i.operand s))).cpu)) := by
  obtain ⟨op, hop, -⟩ := Laws.TableEntry.everyInstruction i hi
  have ht := exec_of_opcodeOf hop s
  rw [endInstr_eq, actionStart_of_reader hi hr, hcpu] at ht
  exact ⟨op, _, ht⟩

/-- Settles O13: each load sets its register, Z and N from `fetched` (`exec_reader`), between the two
forcings of U (`forced_setZN`). -/
theorem loadsTakeTheOperand : Obligations.LoadsTakeTheOperand := by
  intro o s
  have hp := forced_setZN s.cpu.p (operandByte o s)
  refine ⟨fun hi => ?_, fun hi => ?_, fun hi => ?_⟩
  all_goals
    obtain ⟨op, extra, ht⟩ := exec_reader hi rfl (fun _ => rfl) s
    exact ⟨_, ht, ⟨rfl, rfl, rfl, rfl, hp⟩, sameSystem_withCpu _ _, sameBytes_afterOperandRead o s _⟩

/-! ### Stores -/

/-- The operations that can write at `addr_abs` (R148). -/
def addressWriters : List Op := [.sta, .stx, .sty, .inc, .dec, .asl, .lsr, .rol, .ror]

/-- They have neither an IND nor an IMM form (R127). -/
theorem mode_of_addressWriter {i : Instr} (hi : i.WellFormed) (hw : addressWriters.contains i.op = true) :
    i.operand.mode ≠ .ind ∧ i.operand.mode ≠ .imm := by
  have hform : (legalModes i.op).contains i.mode = true := (Bool.and_eq_true_iff.mp hi).1
  have hmodes : ∀ (op : Op) (m : Mode), addressWriters.contains op = true →
      (legalModes op).contains m = true → m ≠ .ind ∧ m ≠ .imm := by
    intro op m; cases op <;> cases m <;> decide
  exact hmodes i.op i.mode hw hform

/-- Every mode but IMM leaves the effective address in `addr_abs` (R149, R151). -/
theorem latchedAddr_eq_effAddr {o : Operand} (h : o.mode ≠ .imm) (s : State) :
    latchedAddr o s = effAddr o s := by
  cases o with
  | imm b => exact absurd rfl h
  | _ => rfl

/-- An instruction that writes one register `r` at `addr_abs` and does no more: the store at the effective
address, and no register or flag changed but U (R183, R184, R185). -/
theorem exec_store {i : Instr} {r : Cpu → Byte} {s : State} (hi : i.WellFormed)
    (hw : addressWriters.contains i.op = true) (hr : operandReaders.contains i.op = false)
    (haction : ∀ v, action i v = memWrite v.cpu.addrAbs (r v.cpu) v)
    (hkept : ∀ op, r (resolvedCpu op i.operand s) = r s.cpu) (hs : s.Ok) :
    ∃ t, exec i s = .next t
      ∧ Regs t s.cpu.a s.cpu.x s.cpu.y s.cpu.sp (statusU s.cpu.p)
      ∧ Stored s t (effAddr i.operand s) (r s.cpu) := by
  obtain ⟨hind, himm⟩ := mode_of_addressWriter hi hw
  obtain ⟨op, hop, -⟩ := Laws.TableEntry.everyInstruction i hi
  have hwrite : action i (actionStart i op s)
      = (memWrite (effAddr i.operand s) (r s.cpu) s).withCpu (resolvedCpu op i.operand s) := by
    rw [actionStart_of_not_reader hr hind, haction, memWrite_withCpu, hkept, ← latchedAddr_eq_effAddr himm]
    rfl
  have ht := exec_of_opcodeOf hop s
  rw [hwrite, endInstr_eq] at ht
  exact ⟨_, ht, ⟨rfl, rfl, rfl, rfl, forced_status s.cpu.p⟩, stored_memWrite hs.ramWf hs.memWf _ _ _⟩

/-- Settles O14: each store writes its register at `addr_abs` and does no more (`exec_store`). -/
theorem storesPutTheRegister : Obligations.StoresPutTheRegister := fun _ _ hs =>
  ⟨fun hi => exec_store (r := Cpu.a) hi rfl rfl (fun _ => rfl) (fun _ => rfl) hs,
    fun hi => exec_store (r := Cpu.x) hi rfl rfl (fun _ => rfl) (fun _ => rfl) hs,
    fun hi => exec_store (r := Cpu.y) hi rfl rfl (fun _ => rfl) (fun _ => rfl) hs⟩

end Sys2Proof.Machine

namespace Sys2Proof.Machine

open Sys2Proof

/-!
PROOFS of the statements on 42_arithmetic_logic.md. An operation on a register is its operand read with CPU
registers set after it (`exec_reader_regs`); subtraction is addition of the complement (`sbc_eq_adc`), so
both are read off one status byte (`statusAdd`); INC and DEC are one read and one write (`exec_rewrite`).
-/

/-! ### Instructions that set CPU registers alone -/

/-- An instruction that reads its operand and then sets CPU registers: those its action gives it, and the
system after the operand read (R140, R141). -/
theorem exec_reader_regs {i : Instr} {s : State} {a x y sp p : Byte} (hi : i.WellFormed)
    (hr : operandReaders.contains i.op = true) (hcpu : ∀ v, action i v = v.withCpu (action i v).cpu)
    (hregs : ∀ op extra, Regs (endInstr extra
      (action i ((afterOperandRead i.operand s).withCpu (fetchedCpu op i.operand s)))) a x y sp p) :
    ∃ t, exec i s = .next t ∧ Regs t a x y sp p
      ∧ SameSystem (afterOperandRead i.operand s) t ∧ SameBytes s t := by
  obtain ⟨op, extra, ht⟩ := exec_reader hi hr hcpu s
  exact ⟨_, ht, hregs op extra, sameSystem_withCpu _ _, sameBytes_afterOperandRead i.operand s _⟩

/-- An instruction that reads no operand and sets CPU registers: those its action gives it, and the system
as it was (R140, R148). -/
theorem exec_plain_regs {i : Instr} {s : State} {a x y sp p : Byte} (hi : i.WellFormed)
    (hr : operandReaders.contains i.op = false) (hind : i.operand.mode ≠ .ind)
    (hcpu : ∀ v, action i v = v.withCpu (action i v).cpu)
    (hregs : ∀ op extra,
      Regs (endInstr extra (action i (s.withCpu (resolvedCpu op i.operand s)))) a x y sp p) :
    ∃ t, exec i s = .next t ∧ Regs t a x y sp p ∧ SameSystem s t := by
  obtain ⟨op, hop, -⟩ := Laws.TableEntry.everyInstruction i hi
  have ht := exec_of_opcodeOf hop s
  rw [actionStart_of_not_reader hr hind] at ht
  refine ⟨_, ht, hregs op _, ?_⟩
  rw [endInstr_eq, hcpu]
  exact sameSystem_withCpu s _

/-! ### Logic, BIT and the compares -/

/-- Settles O17: each combines A with `fetched` and sets Z and N from the result (`exec_reader_regs`),
between the two forcings of U (`forced_setZN`). -/
theorem logicCombinesBitwise : Obligations.LogicCombinesBitwise := fun _ s =>
  have hp := forced_setZN s.cpu.p
  ⟨fun hi => exec_reader_regs hi rfl (fun _ => rfl) fun _ _ => ⟨rfl, rfl, rfl, rfl, hp _⟩,
    fun hi => exec_reader_regs hi rfl (fun _ => rfl) fun _ _ => ⟨rfl, rfl, rfl, rfl, hp _⟩,
    fun hi => exec_reader_regs hi rfl (fun _ => rfl) fun _ _ => ⟨rfl, rfl, rfl, rfl, hp _⟩⟩

/-- Settles O18: BIT sets P alone (`exec_reader_regs`), to the flags of `forced_bitStatus`. -/
theorem bitTestsTheOperand : Obligations.BitTestsTheOperand := fun _ _ hi =>
  exec_reader_regs hi rfl (fun _ => rfl) fun _ _ => ⟨rfl, rfl, rfl, rfl, forced_bitStatus _ _ _⟩

/-- Settles O19: each compare sets P alone (`exec_reader_regs`), from its register and `fetched`, to the
flags of `forced_compareStatus`. -/
theorem comparesSetCarryZeroNegative : Obligations.ComparesSetCarryZeroNegative := fun o s =>
  have hp (r : Byte) := forced_compareStatus s.cpu.p r (operandByte o s)
  ⟨fun hi => exec_reader_regs hi rfl (fun _ => rfl) fun _ _ => ⟨rfl, rfl, rfl, rfl, hp s.cpu.a⟩,
    fun hi => exec_reader_regs hi rfl (fun _ => rfl) fun _ _ => ⟨rfl, rfl, rfl, rfl, hp s.cpu.x⟩,
    fun hi => exec_reader_regs hi rfl (fun _ => rfl) fun _ _ => ⟨rfl, rfl, rfl, rfl, hp s.cpu.y⟩⟩

/-- Settles O21: each sets its index register, Z and N and touches nothing outside the CPU
(`exec_plain_regs`). -/
theorem indexIncrementsAndDecrements : Obligations.IndexIncrementsAndDecrements := fun s =>
  have hp := forced_setZN s.cpu.p
  ⟨exec_plain_regs rfl rfl (by decide) (fun _ => rfl) fun _ _ => ⟨rfl, rfl, rfl, rfl, hp _⟩,
    exec_plain_regs rfl rfl (by decide) (fun _ => rfl) fun _ _ => ⟨rfl, rfl, rfl, rfl, hp _⟩,
    exec_plain_regs rfl rfl (by decide) (fun _ => rfl) fun _ _ => ⟨rfl, rfl, rfl, rfl, hp _⟩,
    exec_plain_regs rfl rfl (by decide) (fun _ => rfl) fun _ _ => ⟨rfl, rfl, rfl, rfl, hp _⟩⟩

end Sys2Proof.Machine

namespace Sys2Proof.Machine

open Sys2Proof

/-! ### The sum, its status byte, and subtraction as a sum -/

/-- Bit 7, as the spec tests it for N and V. -/
theorem and_0x80_ne_zero (b : Byte) : (b &&& 0x80 != 0) = b.getLsbD 7 := by
  revert b; decide

/-- The status byte an addition of `m` to `a` leaves with U = 1: C past 255, Z and N from the sum, V from
the signs (R190). `adc_forced` ties it to `adc`. -/
def statusAdd (p a m : Byte) : Byte :=
  let r := (adc p a m).result
  packP (r.getLsbD 7) ((~~~(a ^^^ m) &&& (a ^^^ r)).getLsbD 7) true (flag p bitB) (flag p bitD)
    (flag p bitI) (r == 0) (decide (a.toNat + m.toNat + carryIn p > 255))

/-- An addition between the two forcings of U (R143, R190). -/
theorem adc_forced (p a m : Byte) :
    (adc (putBit p bitU true) a m).result = (adc p a m).result
      ∧ putBit (adc (putBit p bitU true) a m).status bitU true = statusAdd p a m := by
  obtain ⟨n, v, u, b, d, i, z, c, rfl⟩ := exists_packP p
  simp only [adc, statusAdd, carryIn, and_0x80_ne_zero, putBit_packP_5, putBit_packP_0, putBit_packP_1,
    putBit_packP_6, putBit_packP_7, flag_packP_0, flag_packP_2, flag_packP_3, flag_packP_4, and_self]

/-- A sum with a sign other than that of both summands: the two formulas of R190 and R191 for V. -/
theorem overflow_sbc_eq_adc (a m r : Byte) :
    ((r ^^^ a) &&& (r ^^^ m)).getLsbD 7 = (~~~(a ^^^ m) &&& (a ^^^ r)).getLsbD 7 := by
  simp only [BitVec.getLsbD_and, BitVec.getLsbD_xor, BitVec.getLsbD_not]
  generalize a.getLsbD 7 = x, m.getLsbD 7 = y, r.getLsbD 7 = z
  revert x y z
  decide

/-- The V formula of R190 in words: the summands have one sign, the sum the other (R205). -/
theorem overflow_eq_signs (a m r : Byte) :
    (~~~(a ^^^ m) &&& (a ^^^ r)).getLsbD 7
      = ((a.getLsbD 7 == m.getLsbD 7) && (r.getLsbD 7 != a.getLsbD 7)) := by
  simp only [BitVec.getLsbD_and, BitVec.getLsbD_xor, BitVec.getLsbD_not]
  generalize a.getLsbD 7 = x, m.getLsbD 7 = y, r.getLsbD 7 = z
  revert x y z
  decide

/-- Subtraction is addition of the complement, on every output (R191, R206). -/
theorem sbc_eq_adc (p a f : Byte) : sbc p a f = adc p a (f ^^^ 0xFF) := by
  simp only [sbc, adc, and_0x80_ne_zero, overflow_sbc_eq_adc]

theorem complement_eq_not (f : Byte) : f ^^^ 0xFF = ~~~f := BitVec.xor_allOnes

/-- What a subtraction leaves in A: A - M - (1 - C) (R191). -/
theorem adc_complement_result (p a f : Byte) :
    (adc p a (f ^^^ 0xFF)).result = a - f - (if flag p bitC then 0 else 1) := by
  have hm : f ^^^ 0xFF = -f - 1 := by
    rw [complement_eq_not, BitVec.neg_eq_not_add]; exact (BitVec.add_sub_cancel ..).symm
  have hsum : (adc p a (f ^^^ 0xFF)).result = a + (f ^^^ 0xFF) + BitVec.ofNat 8 (flag p bitC).toNat := by
    simp only [adc, carryIn, BitVec.ofNat_add, BitVec.ofNat_toNat, BitVec.setWidth_eq]
  rw [hsum, hm]
  cases flag p bitC with
  | false => show a + (-f - 1) + 0 = a - f - 1; ring
  | true => show a + (-f - 1) + 1 = a - f - 0; ring

/-- A subtraction borrows exactly when its sum stays below 256 (R191). -/
theorem no_borrow_iff (p a f : Byte) :
    a.toNat + (f ^^^ 0xFF).toNat + carryIn p > 255
      ↔ a.toNat ≥ f.toNat + (if flag p bitC then 0 else 1) := by
  have hf := f.isLt
  rw [complement_eq_not, BitVec.toNat_not, carryIn]
  cases flag p bitC with
  | false => simp only [Bool.toNat_false, Bool.false_eq_true, if_false]; omega
  | true => simp only [Bool.toNat_true, if_true]; omega

/-! ### ADC and SBC -/

/-- ADC: the sum in A, and its status byte. -/
theorem exec_adc {o : Operand} (hi : (Instr.adc o).WellFormed) (s : State) :
    ∃ t, exec (.adc o) s = .next t
      ∧ Regs t (adc s.cpu.p s.cpu.a (operandByte o s)).result s.cpu.x s.cpu.y s.cpu.sp
          (statusAdd s.cpu.p s.cpu.a (operandByte o s))
      ∧ SameSystem (afterOperandRead o s) t ∧ SameBytes s t :=
  have ⟨hresult, hstatus⟩ := adc_forced s.cpu.p s.cpu.a (operandByte o s)
  exec_reader_regs hi rfl (fun _ => rfl) fun _ _ => ⟨hresult, rfl, rfl, rfl, hstatus⟩

/-- SBC: the sum with the complement of the operand in A, and its status byte. -/
theorem exec_sbc {o : Operand} (hi : (Instr.sbc o).WellFormed) (s : State) :
    ∃ t, exec (.sbc o) s = .next t
      ∧ Regs t (adc s.cpu.p s.cpu.a (operandByte o s ^^^ 0xFF)).result s.cpu.x s.cpu.y s.cpu.sp
          (statusAdd s.cpu.p s.cpu.a (operandByte o s ^^^ 0xFF))
      ∧ SameSystem (afterOperandRead o s) t ∧ SameBytes s t := by
  obtain ⟨hresult, hstatus⟩ := adc_forced s.cpu.p s.cpu.a (operandByte o s ^^^ 0xFF)
  rw [← sbc_eq_adc] at hresult hstatus
  exact exec_reader_regs hi rfl (fun _ => rfl) fun _ _ => ⟨hresult, rfl, rfl, rfl, hstatus⟩

/-- Settles O15: the flags of `statusAdd`, one by one; its V is both formulas (`and_0x80_ne_zero`,
`overflow_eq_signs`). -/
theorem adcAddsWithCarry : Obligations.AdcAddsWithCarry := by
  intro o s hi a f sum
  obtain ⟨t, ht, ⟨ha, hx, hy, hsp, hp⟩, hsystem, hbytes⟩ := exec_adc hi s
  have hv : flag t.cpu.p bitV = (~~~(a ^^^ f) &&& (a ^^^ t.cpu.a)).getLsbD 7 := by
    rw [hp, ha]; exact flag_packP_6 ..
  refine ⟨t, ht, ha, ?_, ?_, ?_, ?_, ?_, hx, hy, hsp, hsystem, hbytes⟩
  · rw [hp]; exact flag_packP_0 ..
  · rw [hp, ha]; exact flag_packP_1 ..
  · rw [hp, ha]; exact flag_packP_7 ..
  · rw [hv, overflow_eq_signs]
  · rw [hv, and_0x80_ne_zero]

/-- Settles O16: SBC is the addition of the complement (`exec_sbc`), which is what ADC does with it as its
immediate operand (`exec_adc`); as a subtraction it is `adc_complement_result` and `no_borrow_iff`. -/
theorem sbcIsAdcOfTheComplement : Obligations.SbcIsAdcOfTheComplement := by
  intro o s hi
  obtain ⟨t, ht, ⟨ha, hx, hy, hsp, hp⟩, hsystem, hbytes⟩ := exec_sbc hi s
  obtain ⟨u, hu, ⟨hua, -, -, -, hup⟩, -, -⟩ := exec_adc (o := .imm (operandByte o s ^^^ 0xFF)) rfl s
  refine ⟨t, u, ht, hu, ha.trans hua.symm, hp.trans hup.symm, ?_, ?_, ?_, ?_, hx, hy, hsp, hsystem, hbytes⟩
  · rw [ha, adc_complement_result]
  · rw [hp, ← decide_eq_decide.mpr (no_borrow_iff s.cpu.p s.cpu.a (operandByte o s))]
    exact flag_packP_0 ..
  · rw [hp, ha]; exact flag_packP_1 ..
  · rw [hp, ha]; exact flag_packP_7 ..

/-! ### INC and DEC -/

/-- An instruction that reads its operand, writes `r` of it back at the same address, and sets Z and N from
what it wrote: one read, one store, no other register changed (R147, R199, R200). -/
theorem exec_rewrite {i : Instr} {r : Byte → Byte} {s : State} (hi : i.WellFormed)
    (hr : operandReaders.contains i.op = true) (hw : addressWriters.contains i.op = true)
    (haction : ∀ v, action i v = (memWrite v.cpu.addrAbs (r v.cpu.fetched) v).setP
      (setZN (memWrite v.cpu.addrAbs (r v.cpu.fetched) v).cpu.p (r v.cpu.fetched))) (hs : s.Ok) :
    ∃ t, exec i s = .next t
      ∧ Regs t s.cpu.a s.cpu.x s.cpu.y s.cpu.sp (statusZN s.cpu.p (r (operandByte i.operand s)))
      ∧ Stored (afterOperandRead i.operand s) t (effAddr i.operand s) (r (operandByte i.operand s)) := by
  obtain ⟨-, himm⟩ := mode_of_addressWriter hi hw
  obtain ⟨op, hop, -⟩ := Laws.TableEntry.everyInstruction i hi
  have ht := exec_of_opcodeOf hop s
  rw [actionStart_of_reader hi hr, haction, memWrite_withCpu] at ht
  have haddr : (fetchedCpu op i.operand s).addrAbs = effAddr i.operand s :=
    latchedAddr_eq_effAddr himm s
  have hram := (afterOperandRead_ram i.operand s).symm ▸ hs.ramWf
  have hmem := (afterOperandRead_mem i.operand s).symm ▸ hs.memWf
  refine ⟨_, ht, ⟨rfl, rfl, rfl, rfl, forced_setZN s.cpu.p _⟩, ?_⟩
  rw [← haddr]
  exact stored_memWrite hram hmem _ _ _

/-- Settles O20: each writes what it makes of `fetched` back at `addr_abs` (`exec_rewrite`). -/
theorem incDecRewriteTheOperand : Obligations.IncDecRewriteTheOperand := fun _ _ hs =>
  ⟨fun hi => exec_rewrite (r := (· + 1)) hi rfl rfl (fun _ => rfl) hs,
    fun hi => exec_rewrite (r := (· - 1)) hi rfl rfl (fun _ => rfl) hs⟩

end Sys2Proof.Machine

namespace Sys2Proof.Machine

open Sys2Proof

/-!
PROOFS of the statements on 43_shift_rotate.md. Each shift moves its operand one place, brings a bit in at the
free end and puts the bit it drops in C; ASL and LSR are the rotations that bring 0 in (`asl_eq`, `rol_eq`,
`lsr_eq`, `ror_eq`). What such an instruction does is said once for all forms (`ShiftOutcome`), and then read
off for the accumulator and for memory.
-/

/-! ### Bytes moved one place -/

/-- `m` one place up, with `c` as its bit 0 (R220, R222). -/
def movedUp (c : Bool) (m : Byte) : Byte := m.shiftConcat c

/-- `m` one place down, with `c` as its bit 7 (R221, R223). -/
def movedDown (c : Bool) (m : Byte) : Byte := (BitVec.cons c m).extractLsb' 1 8

theorem getLsbD_movedUp (c : Bool) (m : Byte) (k : Nat) :
    (movedUp c m).getLsbD k = if k = 0 then c else decide (k < 8) && m.getLsbD (k - 1) := by
  rw [movedUp, BitVec.getLsbD_shiftConcat]
  split
  · next hk => subst hk; rfl
  · rfl

theorem getLsbD_movedDown (c : Bool) (m : Byte) (k : Nat) :
    (movedDown c m).getLsbD k = if k = 7 then c else m.getLsbD (k + 1) := by
  rw [movedDown, BitVec.getLsbD_extractLsb', BitVec.getLsbD_cons, Nat.add_comm 1 k]
  by_cases hk : k < 8
  · simp [hk]
  · rw [decide_eq_false hk, Bool.false_and, if_neg (by omega), BitVec.getLsbD_of_ge m _ (by omega)]

/-- Moving down what was moved up, with the bit that fell out, gives the byte back (R224). -/
theorem movedDown_movedUp (c : Bool) (m : Byte) : movedDown (m.getLsbD 7) (movedUp c m) = m := by
  apply BitVec.eq_of_getLsbD_eq
  intro k hk
  rw [getLsbD_movedDown, getLsbD_movedUp]
  by_cases h7 : k = 7
  · rw [if_pos h7, h7]
  · simp [h7, show k + 1 < 8 by omega]

/-- Moving up what was moved down, with the bit that fell out, gives the byte back (R224). -/
theorem movedUp_movedDown (c : Bool) (m : Byte) : movedUp (m.getLsbD 0) (movedDown c m) = m := by
  apply BitVec.eq_of_getLsbD_eq
  intro k hk
  rw [getLsbD_movedUp, getLsbD_movedDown]
  by_cases h0 : k = 0
  · rw [if_pos h0, h0]
  · rw [if_neg h0, decide_eq_true hk, Bool.true_and, if_neg (by omega), Nat.sub_add_cancel (by omega)]

theorem movedUp_false (m : Byte) : movedUp false m = 2 * m := by
  have hmul : (2 : Byte) * m = m <<< 1 :=
    (BitVec.mul_comm 2 m).trans (BitVec.shiftLeft_eq_mul_twoPow m 1).symm
  apply BitVec.eq_of_getLsbD_eq
  intro k hk
  rw [hmul, getLsbD_movedUp, BitVec.getLsbD_shiftLeft]
  by_cases h0 : k = 0
  · simp [h0]
  · simp [h0, show ¬ k < 1 by omega]

theorem movedDown_false (m : Byte) : movedDown false m = m >>> 1 := by
  apply BitVec.eq_of_getLsbD_eq
  intro k hk
  rw [getLsbD_movedDown, BitVec.getLsbD_ushiftRight, Nat.add_comm 1 k]
  split
  · next h7 => rw [h7]; exact (BitVec.getLsbD_of_ge m 8 (Nat.le_refl 8)).symm
  · rfl

/-! ### The four operations -/

/-- A shift's result `r` with its status byte: C the bit that fell out, Z and N from the result. -/
def shifted (p : Byte) (out : Bool) (r : Byte) : Alu := ⟨r, setZN (putBit p bitC out) r⟩

/-- The 9 bits of a shift to the left: the operand, and below it the bit that comes in (R222). -/
theorem shiftLeft_or_carry (m : Byte) (c : Bool) :
    (m.setWidth 9 <<< 1) ||| (BitVec.ofBool c).setWidth 9 = m.concat c := by
  apply BitVec.eq_of_getLsbD_eq
  intro k hk
  rw [BitVec.getLsbD_or, BitVec.getLsbD_shiftLeft, BitVec.getLsbD_setWidth, BitVec.getLsbD_setWidth,
    BitVec.getLsbD_concat]
  by_cases h0 : k = 0
  · subst h0; simp
  · simp [h0, hk, show ¬ k < 1 by omega, show k - 1 < 9 by omega]

theorem rol_eq (p m : Byte) : rol p m = shifted p (m.getLsbD 7) (movedUp (flag p bitC) m) := by
  have hout : (m.concat (flag p bitC)).getLsbD 8 = m.getLsbD 7 := BitVec.getLsbD_concat ..
  simp only [rol, shiftLeft_or_carry, hout]
  rfl

theorem asl_eq (p m : Byte) : asl p m = shifted p (m.getLsbD 7) (movedUp false m) := by
  have hconcat : m.setWidth 9 <<< 1 = m.concat false := by
    rw [← shiftLeft_or_carry]; exact BitVec.or_zero.symm
  have hout : (m.concat false).getLsbD 8 = m.getLsbD 7 := BitVec.getLsbD_concat ..
  simp only [asl, hconcat, hout]
  rfl

theorem ror_eq (p m : Byte) : ror p m = shifted p (m.getLsbD 0) (movedDown (flag p bitC) m) := by
  have hresult :
      (BitVec.ofBool (flag p bitC)).setWidth 8 <<< 7 ||| m >>> 1 = movedDown (flag p bitC) m := by
    apply BitVec.eq_of_getLsbD_eq
    intro k hk
    rw [BitVec.getLsbD_or, BitVec.getLsbD_shiftLeft, BitVec.getLsbD_setWidth, BitVec.getLsbD_ushiftRight,
      getLsbD_movedDown, Nat.add_comm 1 k]
    by_cases h7 : k = 7
    · subst h7; simp
    · simp [h7, show k < 7 by omega]
  simp only [ror, hresult]
  rfl

theorem lsr_eq (p m : Byte) : lsr p m = shifted p (m.getLsbD 0) (movedDown false m) := by
  rw [movedDown_false]; rfl

/-- A shift overwrites the C that was there. -/
theorem shifted_putC (p : Byte) (c out : Bool) (r : Byte) :
    shifted (putBit p bitC c) out r = shifted p out r := by
  obtain ⟨n, v, u, b, d, i, z, c', rfl⟩ := exists_packP p
  simp only [shifted, putBit_packP_0]

theorem flag_shifted_C (p : Byte) (out : Bool) (r : Byte) :
    flag (shifted p out r).status bitC = out := by
  obtain ⟨n, v, u, b, d, i, z, c, rfl⟩ := exists_packP p
  simp [shifted, setZN]

/-- A shift writes no flag but C, Z and N (R224). -/
theorem flag_shifted_of_kept (p : Byte) (out : Bool) (r : Byte) {k : Nat}
    (hk : k ∈ [bitV, bitI, bitD, bitB, bitU]) : flag (shifted p out r).status k = flag p k := by
  have hne : k ≠ bitC ∧ k ≠ bitZ ∧ k ≠ bitN := by revert k; decide
  obtain ⟨hc, hz, hn⟩ := hne
  rw [shifted, setZN, flag_putBit_ne _ _ _ _ (by decide) hn, flag_putBit_ne _ _ _ _ (by decide) hz,
    flag_putBit_ne _ _ _ _ (by decide) hc]

/-! ### A shift in any form -/

/-- `s` after a shift has read its operand and written `r` back to A or to the effective address (R147). -/
def shiftStored (o : Operand) (r : Byte) (s : State) : State :=
  writeBack o r ((afterOperandRead o s).setAddrAbs (effAddr o s))

/-- What a shift does from `s`: one operand read, `r` written back, C set to `out`, Z and N from `r`; X, Y, SP
and the rest of the system as they were. -/
def ShiftOutcome (i : Instr) (s : State) (out : Bool) (r : Byte) : Prop :=
  ∃ t, exec i s = .next t
    ∧ Regs t (shiftStored i.operand r s).cpu.a s.cpu.x s.cpu.y s.cpu.sp (statusCZN s.cpu.p out r)
    ∧ SameSystem (shiftStored i.operand r s) t

/-- In a memory form the write-back is a bus write, whatever the CPU's other registers are. -/
theorem writeBack_withCpu {o : Operand} (ho : o ≠ .imp) (r : Byte) (s : State) (c : Cpu) :
    writeBack o r (s.withCpu c) = (memWrite c.addrAbs r s).withCpu c := by
  rw [writeBack_of_ne_imp ho, memWrite_withCpu]

theorem shiftStored_of_ne_imp {o : Operand} (ho : o ≠ .imp) (r : Byte) (s : State) :
    shiftStored o r s = (memWrite (effAddr o s) r (afterOperandRead o s)).withCpu
      { s.cpu with addrAbs := effAddr o s } := by
  rw [shiftStored, State.setAddrAbs, afterOperandRead_cpu]
  exact writeBack_withCpu ho r (afterOperandRead o s) _

/-- The end of a shift, from the state after its fetch(): the write-back and the flags, in the frame. -/
theorem finishShift_fetched {o : Operand} (himm : o.mode ≠ .imm) (op : Byte) (s : State) (extra out : Bool)
    (r : Byte) :
    let t := endInstr extra (finishShift o (shifted (putBit s.cpu.p bitU true) out r)
      ((afterOperandRead o s).withCpu (fetchedCpu op o s)))
    Regs t (shiftStored o r s).cpu.a s.cpu.x s.cpu.y s.cpu.sp (statusCZN s.cpu.p out r)
      ∧ SameSystem (shiftStored o r s) t := by
  have hp := forced_setC_setZN s.cpu.p r out
  by_cases ho : o = .imp
  · subst ho
    exact ⟨⟨rfl, rfl, rfl, rfl, hp⟩, sameSystem_withCpu _ _⟩
  · have hfinish : finishShift o (shifted (putBit s.cpu.p bitU true) out r)
          ((afterOperandRead o s).withCpu (fetchedCpu op o s))
        = (memWrite (effAddr o s) r (afterOperandRead o s)).withCpu
          { fetchedCpu op o s with p := (shifted (putBit s.cpu.p bitU true) out r).status } := by
      rw [← latchedAddr_eq_effAddr himm s]
      exact writeBack_withCpu ho r (afterOperandRead o s) _
    rw [hfinish, shiftStored_of_ne_imp ho]
    exact ⟨⟨rfl, rfl, rfl, rfl, hp⟩, sameSystem_withCpu _ _⟩

/-- An instruction that moves its operand one place and writes it back has the outcome of a shift. -/
theorem shiftOutcome_of_action {i : Instr} {out : Byte → Bool} {move : Bool → Byte → Byte}
    (hi : i.WellFormed) (hr : operandReaders.contains i.op = true)
    (hw : addressWriters.contains i.op = true)
    (haction : ∀ v, action i v = finishShift i.operand
      (shifted v.cpu.p (out v.cpu.fetched) (move (flag v.cpu.p bitC) v.cpu.fetched)) v) (s : State) :
    ShiftOutcome i s (out (operandByte i.operand s))
      (move (flag s.cpu.p bitC) (operandByte i.operand s)) := by
  obtain ⟨-, himm⟩ := mode_of_addressWriter hi hw
  obtain ⟨op, hop, -⟩ := Laws.TableEntry.everyInstruction i hi
  have ht := exec_of_opcodeOf hop s
  rw [actionStart_of_reader hi hr, haction] at ht
  rw [← flag_forced s.cpu.p (k := bitC) (by decide)]
  exact ⟨_, ht, finishShift_fetched himm op s _ _ _⟩

section Forms

variable {o : Operand} (s : State)

theorem exec_asl (hi : (Instr.asl o).WellFormed) :
    ShiftOutcome (.asl o) s ((operandByte o s).getLsbD 7) (movedUp false (operandByte o s)) :=
  shiftOutcome_of_action (move := fun _ => movedUp false) (out := (·.getLsbD 7)) hi rfl rfl
    (fun v => congrArg (finishShift o · v) (asl_eq ..)) s

theorem exec_lsr (hi : (Instr.lsr o).WellFormed) :
    ShiftOutcome (.lsr o) s ((operandByte o s).getLsbD 0) (movedDown false (operandByte o s)) :=
  shiftOutcome_of_action (move := fun _ => movedDown false) (out := (·.getLsbD 0)) hi rfl rfl
    (fun v => congrArg (finishShift o · v) (lsr_eq ..)) s

theorem exec_rol (hi : (Instr.rol o).WellFormed) :
    ShiftOutcome (.rol o) s ((operandByte o s).getLsbD 7)
      (movedUp (flag s.cpu.p bitC) (operandByte o s)) :=
  shiftOutcome_of_action (move := movedUp) (out := (·.getLsbD 7)) hi rfl rfl
    (fun v => congrArg (finishShift o · v) (rol_eq ..)) s

theorem exec_ror (hi : (Instr.ror o).WellFormed) :
    ShiftOutcome (.ror o) s ((operandByte o s).getLsbD 0)
      (movedDown (flag s.cpu.p bitC) (operandByte o s)) :=
  shiftOutcome_of_action (move := movedDown) (out := (·.getLsbD 0)) hi rfl rfl
    (fun v => congrArg (finishShift o · v) (ror_eq ..)) s

end Forms

/-! ### On the accumulator -/

/-- In the IMP form the result goes to A, and the system is as it was. -/
theorem ShiftOutcome.accumulator {i : Instr} {s : State} {out : Bool} {r : Byte}
    (ho : i.operand = .imp) (h : ShiftOutcome i s out r) :
    ∃ t, exec i s = .next t ∧ SameSystem s t
      ∧ Regs t r s.cpu.x s.cpu.y s.cpu.sp (statusCZN s.cpu.p out r) := by
  obtain ⟨t, ht, hregs, hsystem⟩ := h
  rw [ho] at hregs hsystem
  exact ⟨t, ht, hsystem, hregs⟩

/-- A and C after a shift of the accumulator. -/
theorem ShiftOutcome.accumulatorCarry {i : Instr} {s : State} {out : Bool} {r : Byte}
    (ho : i.operand = .imp) (h : ShiftOutcome i s out r) :
    ∃ t, exec i s = .next t ∧ t.cpu.a = r ∧ flag t.cpu.p bitC = out := by
  obtain ⟨t, ht, -, ha, -, -, -, hp⟩ := h.accumulator ho
  exact ⟨t, ht, ha, hp ▸ flag_packP_0 ..⟩

/-- Settles O23: the outcome of each shift in its IMP form (`ShiftOutcome.accumulator`), with the bits of its
result (`getLsbD_movedUp`, `getLsbD_movedDown`). -/
theorem accumulatorShifts : Obligations.AccumulatorShifts := by
  intro s a c
  have hasl := (exec_asl (o := .imp) s rfl).accumulator rfl
  have hlsr := (exec_lsr (o := .imp) s rfl).accumulator rfl
  have hrol := (exec_rol (o := .imp) s rfl).accumulator rfl
  have hror := (exec_ror (o := .imp) s rfl).accumulator rfl
  rw [movedUp_false] at hasl
  rw [movedDown_false] at hlsr
  obtain ⟨t, ht, hsystem, hregs⟩ := hrol
  obtain ⟨t', ht', hsystem', hregs'⟩ := hror
  exact ⟨hasl, hlsr, ⟨t, _, ht, hsystem, getLsbD_movedUp c a, hregs⟩,
    t', _, ht', hsystem', getLsbD_movedDown c a, hregs'⟩

/-! ### On memory -/

/-- The bytes of memory are part of the system. -/
theorem SameSystem.sameBytes {s t : State} (h : SameSystem s t) : SameBytes s t :=
  have ⟨_, hram, hmem, _⟩ := h
  SameBytes.of_eq hram hmem

/-- In a memory form A is kept, and the result is stored at the address that was read (R147). -/
theorem ShiftOutcome.memory {i : Instr} {s : State} {out : Bool} {r : Byte} (ho : i.operand ≠ .imp)
    (hs : s.Ok) (h : ShiftOutcome i s out r) :
    ∃ t, exec i s = .next t
      ∧ Regs t s.cpu.a s.cpu.x s.cpu.y s.cpu.sp (statusCZN s.cpu.p out r)
      ∧ Stored (afterOperandRead i.operand s) t (effAddr i.operand s) r := by
  obtain ⟨t, ht, hregs, hsystem⟩ := h
  rw [shiftStored_of_ne_imp ho] at hregs hsystem
  obtain ⟨-, hbytes⟩ := stored_memWrite ((afterOperandRead_ram i.operand s).symm ▸ hs.ramWf)
    ((afterOperandRead_mem i.operand s).symm ▸ hs.memWf) (effAddr i.operand s) r
    { s.cpu with addrAbs := effAddr i.operand s }
  exact ⟨t, ht, hregs, hsystem, fun a ha => (hsystem.sameBytes a ha).trans (hbytes a ha)⟩

/-- Settles O24: the outcome of each shift in a memory form (`ShiftOutcome.memory`), with the bits of its
result (`getLsbD_movedUp`, `getLsbD_movedDown`). -/
theorem memoryShifts : Obligations.MemoryShifts := by
  intro o s hs ho m c
  refine ⟨fun hi => ?_, fun hi => ?_, fun hi => ?_, fun hi => ?_⟩
  · rw [← movedUp_false]; exact (exec_asl s hi).memory ho hs
  · rw [← movedDown_false]; exact (exec_lsr s hi).memory ho hs
  · obtain ⟨t, ht, hregs, hstored⟩ := (exec_rol s hi).memory (i := .rol o) ho hs
    exact ⟨t, _, ht, getLsbD_movedUp c m, hregs, hstored⟩
  · obtain ⟨t, ht, hregs, hstored⟩ := (exec_ror s hi).memory (i := .ror o) ho hs
    exact ⟨t, _, ht, getLsbD_movedDown c m, hregs, hstored⟩

/-! ### The laws -/

section Carry

variable (o : Operand) (s : State) (k : Nat) (on : Bool)

theorem effAddr_setFlag : effAddr o (s.setFlag k on) = effAddr o s := by
  cases o with
  | ind | izx | izy => simp only [effAddr, effective, readPointer_setFlag, State.setFlag_x, State.setFlag_y]
  | _ => rfl

theorem peek_setFlag (a : Word) : peek (s.setFlag k on) a = peek s a :=
  peek_withCpu a s (s.setFlag k on).cpu

theorem operandByte_setFlag : operandByte o (s.setFlag k on) = operandByte o s := by
  cases o with
  | imp | imm => rfl
  | _ => simp only [operandByte, peek_setFlag, effAddr_setFlag]

theorem afterOperandRead_setFlag :
    afterOperandRead o (s.setFlag k on) = (afterOperandRead o s).setFlag k on := by
  cases o with
  | imp | imm => rfl
  | _ => simp only [afterOperandRead, effAddr_setFlag, memRead_setFlag]

theorem shiftStored_setFlag (r : Byte) :
    shiftStored o r (s.setFlag k on) = (shiftStored o r s).setFlag k on := by
  rw [shiftStored, afterOperandRead_setFlag, effAddr_setFlag]
  exact writeBack_setFlag ((afterOperandRead o s).setAddrAbs (effAddr o s)) k on o r

end Carry

/-- What a shift leaves in P does not depend on the C that was there, but through its result. -/
theorem statusCZN_putC (p : Byte) (c out : Bool) (r : Byte) :
    statusCZN (putBit p bitC c) out r = statusCZN p out r := by
  obtain ⟨n, v, u, b, d, i, z, c', rfl⟩ := exists_packP p
  simp [statusCZN]

/-- Two states with the system of a third have the same system. -/
theorem SameSystem.of_common {s t u : State} (hu : SameSystem s u) (ht : SameSystem s t) :
    SameSystem u t := by
  obtain ⟨hppu, hram, hmem, hcart, hclock, hparams⟩ := hu
  rw [SameSystem, hppu, hram, hmem, hcart, hclock, hparams]
  exact ht

/-- Two shifts of one operand, one after C = 0, with one result: they agree on A, P and the system (R224). -/
theorem ShiftOutcome.agree {i j : Instr} {s : State} {out : Bool} {r : Byte} (hij : j.operand = i.operand)
    (h : ShiftOutcome i s out r) (h' : ShiftOutcome j (s.setFlag bitC false) out r) :
    ∃ t u, exec i s = .next t ∧ exec j (s.setFlag bitC false) = .next u
      ∧ t.cpu.a = u.cpu.a ∧ t.cpu.p = u.cpu.p ∧ SameSystem u t := by
  obtain ⟨t, ht, ⟨hta, -, -, -, htp⟩, htsys⟩ := h
  obtain ⟨u, hu, ⟨hua, -, -, -, hup⟩, husys⟩ := h'
  rw [hij, shiftStored_setFlag] at hua husys
  rw [State.setFlag_p, statusCZN_putC] at hup
  exact ⟨t, u, ht, hu, hta.trans hua.symm, htp.trans hup.symm, husys.of_common htsys⟩

section AfterClc

variable {o : Operand} (s : State)

theorem exec_rol_carryClear (hi : (Instr.rol o).WellFormed) :
    ShiftOutcome (.rol o) (s.setFlag bitC false) ((operandByte o s).getLsbD 7)
      (movedUp false (operandByte o s)) := by
  have h := exec_rol (s.setFlag bitC false) hi
  rwa [operandByte_setFlag, State.setFlag_p, flag_putBit_self s.cpu.p bitC false (by decide)] at h

theorem exec_ror_carryClear (hi : (Instr.ror o).WellFormed) :
    ShiftOutcome (.ror o) (s.setFlag bitC false) ((operandByte o s).getLsbD 0)
      (movedDown false (operandByte o s)) := by
  have h := exec_ror (s.setFlag bitC false) hi
  rwa [operandByte_setFlag, State.setFlag_p, flag_putBit_self s.cpu.p bitC false (by decide)] at h

end AfterClc

/-- ROR A takes back ROL A (R224). -/
theorem exec_rol_ror (s : State) :
    ∃ t u, exec (.rol .imp) s = .next t ∧ exec (.ror .imp) t = .next u
      ∧ u.cpu.a = s.cpu.a ∧ flag u.cpu.p bitC = flag s.cpu.p bitC := by
  obtain ⟨t, ht, hta, htc⟩ := (exec_rol (o := .imp) s rfl).accumulatorCarry rfl
  obtain ⟨u, hu, hua, huc⟩ := (exec_ror (o := .imp) t rfl).accumulatorCarry rfl
  rw [operandByte, hta] at hua huc
  rw [htc] at hua
  exact ⟨t, u, ht, hu, hua.trans (movedDown_movedUp _ _), huc.trans (getLsbD_movedUp _ _ 0)⟩

/-- ROL A takes back ROR A (R224). -/
theorem exec_ror_rol (s : State) :
    ∃ t u, exec (.ror .imp) s = .next t ∧ exec (.rol .imp) t = .next u
      ∧ u.cpu.a = s.cpu.a ∧ flag u.cpu.p bitC = flag s.cpu.p bitC := by
  obtain ⟨t, ht, hta, htc⟩ := (exec_ror (o := .imp) s rfl).accumulatorCarry rfl
  obtain ⟨u, hu, hua, huc⟩ := (exec_rol (o := .imp) t rfl).accumulatorCarry rfl
  rw [operandByte, hta] at hua huc
  rw [htc] at hua
  exact ⟨t, u, ht, hu, hua.trans (movedUp_movedDown _ _), huc.trans (getLsbD_movedDown _ _ 7)⟩

/-- The operations: ROR takes back ROL (R224). -/
theorem ror_rol (p m : Byte) :
    (ror (rol p m).status (rol p m).result).result = m
      ∧ flag (ror (rol p m).status (rol p m).result).status bitC = flag p bitC := by
  rw [ror_eq, rol_eq, flag_shifted_C, flag_shifted_C]
  exact ⟨movedDown_movedUp (flag p bitC) m, getLsbD_movedUp (flag p bitC) m 0⟩

/-- The operations: ROL takes back ROR (R224). -/
theorem rol_ror (p m : Byte) :
    (rol (ror p m).status (ror p m).result).result = m
      ∧ flag (rol (ror p m).status (ror p m).result).status bitC = flag p bitC := by
  rw [rol_eq, ror_eq, flag_shifted_C, flag_shifted_C]
  exact ⟨movedUp_movedDown (flag p bitC) m, getLsbD_movedDown (flag p bitC) m 7⟩

theorem asl_eq_rol (p m : Byte) : asl p m = rol (putBit p bitC false) m := by
  rw [asl_eq, rol_eq, flag_putBit_self p bitC false (by decide), shifted_putC]

theorem lsr_eq_ror (p m : Byte) : lsr p m = ror (putBit p bitC false) m := by
  rw [lsr_eq, ror_eq, flag_putBit_self p bitC false (by decide), shifted_putC]

/-- No shift writes V, I, D, B or U: each is some `shifted` (R224). -/
theorem flag_shift_of_kept {p m : Byte} {r : Alu} (hr : r ∈ [asl p m, lsr p m, rol p m, ror p m]) {k : Nat}
    (hk : k ∈ [bitV, bitI, bitD, bitB, bitU]) : flag r.status k = flag p k := by
  simp only [asl_eq, lsr_eq, rol_eq, ror_eq, List.mem_cons, List.not_mem_nil, or_false] at hr
  obtain rfl | rfl | rfl | rfl := hr
  all_goals exact flag_shifted_of_kept p _ _ hk

/-- Settles O25: ASL and LSR have the outcome of ROL and ROR after C = 0 (`ShiftOutcome.agree`); the
rotations take each other back because moving a byte up and down does (`movedDown_movedUp`,
`movedUp_movedDown`). -/
theorem shiftLaws : Obligations.ShiftLaws := by
  refine ⟨fun o s hi => ⟨?_, ?_⟩, fun s => ⟨exec_rol_ror s, exec_ror_rol s⟩, fun p m => ?_⟩
  · exact (exec_asl s hi).agree rfl (exec_rol_carryClear s hi)
  · exact (exec_lsr s hi).agree rfl (exec_ror_carryClear s hi)
  · obtain ⟨hror, hrorC⟩ := ror_rol p m
    obtain ⟨hrol, hrolC⟩ := rol_ror p m
    exact ⟨hror, hrorC, hrol, hrolC, asl_eq_rol p m, lsr_eq_ror p m,
      fun r hr k hk => flag_shift_of_kept hr hk⟩

end Sys2Proof.Machine

namespace Sys2Proof.Machine

open Sys2Proof

/-!
PROOFS of the statements on 44_control_transfer.md. A control transfer reads nothing through fetch(), so it
is its action from the state its mode leaves (`exec_of_not_reader`); the action is one update of the CPU, and
for JSR and BRK of RAM (`action_jsr`, `action_brk`). For the round trips the bytes a push leaves are read
back where the return pops them (`stackByte_of_pushed2`, `stackByte_of_pushed3`).
-/

/-! ### An instruction without a fetch() -/

/-- An instruction that reads nothing through fetch(): its action, from the state its mode leaves, in its
frame (R140, R148). -/
theorem exec_of_not_reader {i : Instr} (hi : i.WellFormed) (hr : operandReaders.contains i.op = false)
    (s : State) :
    ∃ op extra, exec i s = .next (endInstr extra
      (action i ((effective i.operand s).state.withCpu (resolvedCpu op i.operand s)))) := by
  obtain ⟨op, hop, -⟩ := Laws.TableEntry.everyInstruction i hi
  have ht := exec_of_opcodeOf hop s
  rw [actionStart, fetchIfReader, hr, if_neg Bool.false_ne_true, addrMode_beginInstr] at ht
  exact ⟨op, _, ht⟩

/-- PC past the opcode byte and one operand byte. -/
theorem resolvedCpu_pc_of_one (op : Byte) {o : Operand} (ho : operandLength o.mode = 1) (s : State) :
    (resolvedCpu op o s).pc = s.cpu.pc + 2 := by
  rw [resolvedCpu, ho, BitVec.add_assoc]; rfl

/-! ### Branches -/

/-- A branch changes the CPU alone (R230). -/
theorem branch_eq (cond : Bool) (s : State) : branch cond s = s.withCpu (branch cond s).cpu := by
  cases cond <;> rfl

/-- The cycles of a branch as R246 counts them: 2 where it is not taken, else 3 on the page of PC + 2 and 4
off it. -/
theorem cyclesTotal_of_branch {i : Instr} {rel : Byte} {s : State} (ho : i.operand = .rel rel)
    (hbase : baseOf i s = 2) :
    cyclesTotal i s
      = if branchTaken i s.cpu.p then
          if (branchTarget rel s).toNat / 256 = (s.cpu.pc + 2).toNat / 256 then 3 else 4
        else 2 := by
  have hpage : crossesPage i.operand s = false := by rw [ho]; rfl
  rw [cyclesTotal, hbase, hpage, branchExtra_of_rel ho]
  cases branchTaken i s.cpu.p with
  | false => rfl
  | true =>
    rw [otherPage]
    by_cases h : (branchTarget rel s).toNat / 256 = (s.cpu.pc + 2).toNat / 256
    · rw [decide_eq_false (not_not.mpr h.symm), if_pos rfl, if_pos h]; rfl
    · rw [decide_eq_true (Ne.symm h), if_pos rfl, if_neg h]; rfl

/-- An instruction whose action is a branch on its test has the outcome of R246: PC as the action leaves it,
the cycles as R142 adds them up, and the rest of the CPU but U as it was. -/
theorem branchOutcome_of_action {i : Instr} {rel : Byte} {s : State} (hi : i.WellFormed)
    (hr : operandReaders.contains i.op = false) (ho : i.operand = .rel rel) (hbase : baseOf i s = 2)
    (haction : ∀ v, action i v = branch (branchTaken i v.cpu.p) v) :
    BranchOutcome i (branchTaken i s.cpu.p) rel s := by
  obtain ⟨op, extra, ht⟩ := exec_of_not_reader hi hr s
  obtain ⟨t, ht', hcycles, -⟩ := exec_completes hi s
  obtain rfl := Host.Outcome.next.inj (ht.symm.trans ht')
  refine ⟨_, ht, ?_, hcycles.trans (cyclesTotal_of_branch ho hbase), ?_⟩
  all_goals rw [haction, ho, endInstr_eq]
  · have hpc := resolvedCpu_pc_of_one op (o := .rel rel) rfl s
    have htaken : branchTaken i (resolvedCpu op (.rel rel) s).p = branchTaken i s.cpu.p :=
      branchTaken_forced i s.cpu.p
    simp only [endedCpu, branch_cpu, hpc, htaken]
    rfl
  · rw [branch_eq, branch_cpu]
    exact ⟨⟨rfl, rfl, rfl, rfl, forced_status s.cpu.p⟩, sameSystem_withCpu _ _⟩

/-- Settles O26: the action of each branch is `branch` on the test of its flag (`branchOutcome_of_action`). -/
theorem branchLaw : Obligations.BranchLaw := by
  intro rel s
  refine ⟨?_, ?_, ?_, ?_, ?_, ?_, ?_, ?_⟩
  all_goals exact branchOutcome_of_action rfl rfl rfl rfl fun _ => rfl

/-! ### JMP -/

/-- JMP goes to the address its mode has left, and changes no register or flag but U (R239). -/
theorem exec_jmp {o : Operand} (hi : (Instr.jmp o).WellFormed) (s : State) :
    ∃ t, exec (.jmp o) s = .next t ∧ t.cpu.pc = latchedAddr o s
      ∧ Regs t s.cpu.a s.cpu.x s.cpu.y s.cpu.sp (statusU s.cpu.p)
      ∧ SameSystem (effective o s).state t := by
  obtain ⟨op, extra, ht⟩ := exec_of_not_reader hi rfl s
  exact ⟨_, ht, rfl, ⟨rfl, rfl, rfl, rfl, forced_status s.cpu.p⟩, sameSystem_withCpu _ _⟩

/-- The second pointer byte of IND, with the page-wrap bug (R159). -/
theorem indHighAddr_eq (w : Word) :
    indHighAddr w = if w.toNat % 256 = 255 then w - 255 else w + 1 := by
  have hn := toNat_indHighAddr w
  split at hn
  · next h => rw [if_pos h]; bv_omega
  · next h => rw [if_neg h]; bv_omega

/-- Settles O27: JMP goes to its effective address (`exec_jmp`), which for IND is the word of two reads
(`indHighAddr_eq`); outside the PPU's window the first of them changes nothing. -/
theorem jmpGoesToItsTarget : Obligations.JmpGoesToItsTarget := by
  intro w s
  rw [← indHighAddr_eq]
  obtain ⟨t, ht, hpc, hregs, hsystem⟩ := exec_jmp (o := .ind w) rfl s
  have hreads : t.cpu.pc = word16 (memRead (indHighAddr w) (memRead w s).2).1 (memRead w s).1 := hpc
  refine ⟨exec_jmp rfl s, t, ht, hregs, hsystem, fun hw => ?_, fun _ => hreads⟩
  rw [hreads, memRead_snd_of_not_window hw, memRead_fst, memRead_fst]

/-! ### The status byte on the stack -/

theorem pushedByInstruction_packP (n v u b d i z c : Bool) :
    pushedByInstruction (packP n v u b d i z c) = packP n v true true d i z c := by
  revert n v u b d i z c; decide

/-- B cleared and U set, as RTI does it to the byte it pops (R243). -/
theorem packP_and_or (n v u b d i z c : Bool) :
    packP n v u b d i z c &&& 0xCF ||| 0x20 = packP n v true false d i z c := by
  revert n v u b d i z c; decide

/-- B cleared and U set, as R245 writes it. -/
theorem packP_and_not_or (n v u b d i z c : Bool) :
    packP n v u b d i z c &&& ~~~0x10 ||| 0x20 = packP n v true false d i z c := by
  revert n v u b d i z c; decide

/-- The copy of P that BRK pushes, after U is forced (R242, R143). -/
theorem pushedByInstruction_forced (p : Byte) :
    pushedByInstruction (putBit p bitU true)
      = packP (flag p bitN) (flag p bitV) true true (flag p bitD) (flag p bitI) (flag p bitZ)
          (flag p bitC) := by
  obtain ⟨n, v, u, b, d, i, z, c, rfl⟩ := exists_packP p
  simp [pushedByInstruction_packP]

/-- P that BRK leaves, between the two forcings of U (R242, R143). -/
theorem forced_brk_status (p : Byte) :
    putBit (putBit (putBit (putBit p bitU true) bitB false) bitI true) bitU true
      = packP (flag p bitN) (flag p bitV) true false (flag p bitD) true (flag p bitZ)
          (flag p bitC) := by
  obtain ⟨n, v, u, b, d, i, z, c, rfl⟩ := exists_packP p
  simp

/-- P that RTI leaves from the byte it pops, after the last forcing of U (R243, R143). -/
theorem forced_rti_status (p : Byte) :
    putBit (putBit (putBit p bitB false) bitU false) bitU true = p &&& 0xCF ||| 0x20 := by
  obtain ⟨n, v, u, b, d, i, z, c, rfl⟩ := exists_packP p
  rw [packP_and_or]
  simp

/-- What RTI makes of the copy that irq() and nmi() push (R245). -/
theorem restored_of_interrupt (p : Byte) :
    pushedByInterrupt p &&& 0xCF ||| 0x20 = p &&& ~~~0x10 ||| 0x20 := by
  obtain ⟨n, v, u, b, d, i, z, c, rfl⟩ := exists_packP p
  rw [packP_and_not_or, pushedByInterrupt, putBit_packP_4, putBit_packP_5, packP_and_or]

/-- What RTI makes of the copy that BRK pushes (R245). -/
theorem restored_of_brk (p : Byte) :
    packP (flag p bitN) (flag p bitV) true true (flag p bitD) (flag p bitI) (flag p bitZ) (flag p bitC)
        &&& 0xCF ||| 0x20
      = p &&& ~~~0x10 ||| 0x20 := by
  obtain ⟨n, v, u, b, d, i, z, c, rfl⟩ := exists_packP p
  rw [packP_and_not_or, packP_and_or]
  simp

/-! ### Subroutines and interrupts -/

theorem action_jsr (w : Word) (v : State) :
    action (.jsr w) v
      = (v.setRam (pushed2 v (hiByte (v.cpu.pc - 1)) (loByte (v.cpu.pc - 1)))).withCpu
          { v.cpu with sp := v.cpu.sp - 2, pc := v.cpu.addrAbs } := by
  rw [action, pushWord_eq]; rfl

theorem action_rts (v : State) :
    action .rts v
      = v.withCpu
          { v.cpu with sp := v.cpu.sp + 2, pc := word16 (stackByte v 2) (stackByte v 1) + 1 } := by
  rw [action, popWord_eq]; rfl

/-- BRK's vector is read where its pushes do not reach (R84). -/
theorem action_brk (v : State) :
    action .brk v
      = (interrupted (pushedByInstruction v.cpu.p) (putBit v.cpu.p bitB false) v).setPc
          (peek16 v irqVector) :=
  takeInterrupt_of_high _ _ (by decide) (by decide) v

theorem action_rti (v : State) :
    action .rti v
      = v.withCpu
          { v.cpu with
            p := putBit (putBit (stackByte v 1) bitB false) bitU false
            sp := v.cpu.sp + 3
            pc := word16 (stackByte v 3) (stackByte v 2) } :=
  returnFromInterrupt_eq v

/-- Settles O28: the pushes of `action_jsr`, at the PC past the instruction's three bytes less 1. -/
theorem jsrPushesTheReturnAddress : Obligations.JsrPushesTheReturnAddress := by
  intro w s
  obtain ⟨op, extra, ht⟩ := exec_of_not_reader (i := .jsr w) rfl rfl s
  have hpc : (resolvedCpu op (.abs w) s).pc - 1 = s.cpu.pc + 2 := by
    show s.cpu.pc + 1 + 2 - 1 = s.cpu.pc + 2
    bv_omega
  rw [action_jsr] at ht
  refine ⟨_, ht, rfl, ⟨rfl, rfl, rfl, rfl, forced_status s.cpu.p⟩, ?_⟩
  rw [← hpc]
  exact sameSystem_withCpu _ _

/-- Settles O29: the two pops of `action_rts`. -/
theorem rtsPopsAndAddsOne : Obligations.RtsPopsAndAddsOne := by
  intro s
  obtain ⟨op, extra, ht⟩ := exec_of_not_reader (i := .rts) rfl rfl s
  rw [action_rts] at ht
  exact ⟨_, ht, rfl, ⟨rfl, rfl, rfl, rfl, forced_status s.cpu.p⟩, sameSystem_withCpu _ _⟩

/-- Settles O31: the pushes and the vector of `action_brk`, at the PC past the padding byte. -/
theorem brkTakesTheInterrupt : Obligations.BrkTakesTheInterrupt := by
  intro s
  obtain ⟨op, extra, ht⟩ := exec_of_not_reader (i := .brk) rfl rfl s
  rw [action_brk] at ht
  refine ⟨_, ht, rfl, ⟨rfl, rfl, rfl, rfl, forced_brk_status s.cpu.p⟩, ?_⟩
  rw [← resolvedCpu_pc_of_one op (o := .imm 0) rfl s, ← pushedByInstruction_forced]
  exact sameSystem_withCpu _ _

/-- Settles O32: the three pops of `action_rti`, and U forced at the end (`forced_rti_status`). -/
theorem rtiRestoresStatusAndPc : Obligations.RtiRestoresStatusAndPc := by
  intro s
  obtain ⟨op, extra, ht⟩ := exec_of_not_reader (i := .rti) rfl rfl s
  rw [action_rti] at ht
  exact ⟨_, ht, rfl, ⟨rfl, rfl, rfl, rfl, forced_rti_status _⟩, sameSystem_withCpu _ _⟩

/-! ### Round trips -/

/-- `u` has the SP of `t` and the `n` bytes above it, whatever else it holds (R245). -/
def StackKept (n : Nat) (t u : State) : Prop :=
  u.cpu.sp = t.cpu.sp
    ∧ ∀ k, 1 ≤ k → k ≤ n → stackByte u (BitVec.ofNat 8 k) = stackByte t (BitVec.ofNat 8 k)

/-- A byte of the stack after a push at `j`. -/
theorem read_write_stack {m : Memory} (hm : m.wf = true) (j k v : Byte) :
    Memory.read (m.write (256 + j.toNat) v) (256 + k.toNat)
      = if k = j then v else m.read (256 + k.toNat) := by
  simp only [Memory.read_write hm, Nat.add_left_cancel_iff, BitVec.toNat_inj]

section Pushed

variable {s t : State} {b c d : Byte}

theorem wf_pushed2 (hram : s.ram.wf = true) : (pushed2 s b c).wf = true :=
  Memory.wf_write _ _ (Memory.wf_write _ _ hram)

/-- The bytes of the stack after two pushes. -/
theorem read_pushed2 (hram : s.ram.wf = true) (k : Byte) :
    (pushed2 s b c).read (256 + k.toNat)
      = if k = s.cpu.sp - 1 then c else if k = s.cpu.sp then b else s.ram.read (256 + k.toNat) := by
  rw [pushed2, pushed1, read_write_stack (Memory.wf_write _ _ hram), read_write_stack hram]

/-- The bytes of the stack after three pushes. -/
theorem read_pushed3 (hram : s.ram.wf = true) (k : Byte) :
    (pushed3 s b c d).read (256 + k.toNat)
      = if k = s.cpu.sp - 2 then d else (pushed2 s b c).read (256 + k.toNat) :=
  read_write_stack (wf_pushed2 hram) _ k d

/-- Above SP lie the two bytes pushed, the last one first (R145, R146). -/
theorem stackByte_of_pushed2 (hram : s.ram.wf = true) (hsp : t.cpu.sp = s.cpu.sp - 2)
    (ht : t.ram = pushed2 s b c) : stackByte t 1 = c ∧ stackByte t 2 = b := by
  simp only [stackByte, hsp, ht, read_pushed2 hram]
  constructor
  · rw [if_pos (by bv_omega)]
  · rw [if_neg (by bv_omega), if_pos (by bv_omega)]

/-- Above SP lie the three bytes pushed, the last one first (R145, R146). -/
theorem stackByte_of_pushed3 (hram : s.ram.wf = true) (hsp : t.cpu.sp = s.cpu.sp - 3)
    (ht : t.ram = pushed3 s b c d) :
    stackByte t 1 = d ∧ stackByte t 2 = c ∧ stackByte t 3 = b := by
  simp only [stackByte, hsp, ht, read_pushed3 hram, read_pushed2 hram]
  refine ⟨?_, ?_, ?_⟩
  · rw [if_pos (by bv_omega)]
  · rw [if_neg (by bv_omega), if_pos (by bv_omega)]
  · rw [if_neg (by bv_omega), if_neg (by bv_omega), if_pos (by bv_omega)]

end Pushed

/-- RTS pops the word that two pushes left, and adds 1 (R245). -/
theorem exec_rts_of_pushed2 {s t u : State} {w : Word} (hram : s.ram.wf = true)
    (hsp : t.cpu.sp = s.cpu.sp - 2) (ht : t.ram = pushed2 s (hiByte w) (loByte w))
    (hu : StackKept 2 t u) :
    ∃ r, exec .rts u = .next r ∧ r.cpu.pc = w + 1 ∧ r.cpu.sp = s.cpu.sp := by
  obtain ⟨husp, hbytes⟩ := hu
  obtain ⟨hlo, hhi⟩ := stackByte_of_pushed2 hram hsp ht
  obtain ⟨r, hr, hpc, ⟨-, -, -, hrsp, -⟩, -⟩ := rtsPopsAndAddsOne u
  have hlo' : stackByte u 1 = loByte w := (hbytes 1 (by decide) (by decide)).trans hlo
  have hhi' : stackByte u 2 = hiByte w := (hbytes 2 (by decide) (by decide)).trans hhi
  refine ⟨r, hr, ?_, ?_⟩
  · rw [hpc, hlo', hhi', word16_hiByte_loByte]
  · rw [hrsp, husp, hsp]
    exact BitVec.sub_add_cancel ..

/-- RTI pops the word and the status byte that three pushes left (R245). -/
theorem exec_rti_of_pushed3 {s t u : State} {w : Word} {pushed : Byte} (hram : s.ram.wf = true)
    (hsp : t.cpu.sp = s.cpu.sp - 3) (ht : t.ram = pushed3 s (hiByte w) (loByte w) pushed)
    (hu : StackKept 3 t u) :
    ∃ r, exec .rti u = .next r ∧ r.cpu.pc = w ∧ r.cpu.sp = s.cpu.sp
      ∧ r.cpu.p = pushed &&& 0xCF ||| 0x20 := by
  obtain ⟨husp, hbytes⟩ := hu
  obtain ⟨hp, hlo, hhi⟩ := stackByte_of_pushed3 hram hsp ht
  obtain ⟨r, hr, hpc, ⟨-, -, -, hrsp, hrp⟩, -⟩ := rtiRestoresStatusAndPc u
  have hp' : stackByte u 1 = pushed := (hbytes 1 (by decide) (by decide)).trans hp
  have hlo' : stackByte u 2 = loByte w := (hbytes 2 (by decide) (by decide)).trans hlo
  have hhi' : stackByte u 3 = hiByte w := (hbytes 3 (by decide) (by decide)).trans hhi
  refine ⟨r, hr, ?_, ?_, ?_⟩
  · rw [hpc, hlo', hhi', word16_hiByte_loByte]
  · rw [hrsp, husp, hsp]
    exact BitVec.sub_add_cancel ..
  · rw [hrp, hp']

/-- Taking an interrupt leaves RAM as its pushes do, whatever its vector (R302, R303). -/
theorem takeInterrupt_ram (pushed live : Byte) (vector : Word) (s : State) :
    (takeInterrupt pushed live vector s).ram
      = pushed3 s (hiByte s.cpu.pc) (loByte s.cpu.pc) pushed := by
  rw [takeInterrupt_eq, State.setPc_ram, memRead16, readPointer_snd]; rfl

/-- RTI returns from irq() and nmi(): from an interrupt through any vector that pushes the P it leaves, at
whatever cost (R245, R302, R303). -/
theorem exec_rti_of_interrupt {s u : State} (hram : s.ram.wf = true) (vector : Word) (n : Nat)
    (hu : StackKept 3
      ((takeInterrupt (pushedByInterrupt s.cpu.p) (pushedByInterrupt s.cpu.p) vector s).setCycles n) u) :
    ∃ r, exec .rti u = .next r ∧ r.cpu.pc = s.cpu.pc ∧ r.cpu.sp = s.cpu.sp
      ∧ r.cpu.p = s.cpu.p &&& ~~~0x10 ||| 0x20 := by
  have hsp : ((takeInterrupt (pushedByInterrupt s.cpu.p) (pushedByInterrupt s.cpu.p) vector
      s).setCycles n).cpu.sp = s.cpu.sp - 3 := by rw [State.setCycles_sp, takeInterrupt_cpu]
  rw [← restored_of_interrupt]
  exact exec_rti_of_pushed3 hram hsp (takeInterrupt_ram _ _ vector s) hu

/-- Settles O30: the pushes of JSR and BRK are in O28 and O31, those of irq() and nmi() in
`takeInterrupt_ram`; RTS and RTI pop them (`exec_rts_of_pushed2`, `exec_rti_of_pushed3`). -/
theorem callAndInterruptRoundTrips : Obligations.CallAndInterruptRoundTrips := by
  intro s hram
  refine ⟨fun w => ?_, fun hI u hu => ?_, fun u hu => ?_, ?_⟩
  · obtain ⟨t, ht, -, ⟨-, -, -, hsp, -⟩, -, htram, -⟩ := jsrPushesTheReturnAddress w s
    refine ⟨t, ht, fun u hu => ?_⟩
    have hpc : s.cpu.pc + 3 = s.cpu.pc + 2 + 1 := (BitVec.add_assoc s.cpu.pc 2 1).symm
    rw [hpc]
    exact exec_rts_of_pushed2 hram hsp htram hu
  · have hirq : irq s = _ := if_neg (by rw [hI]; exact Bool.false_ne_true)
    rw [hirq] at hu
    exact exec_rti_of_interrupt hram irqVector 7 hu
  · exact exec_rti_of_interrupt hram s.params.nmiVector 8 hu
  · obtain ⟨t, ht, -, ⟨-, -, -, hsp, -⟩, -, htram, -⟩ := brkTakesTheInterrupt s
    refine ⟨t, ht, fun u hu => ?_⟩
    rw [← restored_of_brk]
    exact exec_rti_of_pushed3 hram hsp htram hu

end Sys2Proof.Machine

namespace Sys2Proof.Machine

open Sys2Proof

/-!
PROOFS of the statements on 45_stack_flags_transfer.md. None of these instructions reads through fetch(), so
each is its action from the state its mode leaves (`exec_of_not_reader`). A push is one update of RAM and the
CPU, a pop one of the CPU (`action_pha`, `action_php`, `action_pla`, `action_plp`); the flag operations and
the transfers set CPU registers alone (`exec_registers`).
-/

/-! ### Flag operations and transfers -/

/-- An instruction that reads no operand and sets CPU registers: the system as it was, and the registers its
action gives it (`exec_plain_regs`, in the order of R264 to R276). -/
theorem exec_registers {i : Instr} {s : State} {a x y sp p : Byte} (hi : i.WellFormed)
    (hr : operandReaders.contains i.op = false) (hind : i.operand.mode ≠ .ind)
    (hcpu : ∀ v, action i v = v.withCpu (action i v).cpu)
    (hregs : ∀ op extra,
      Regs (endInstr extra (action i (s.withCpu (resolvedCpu op i.operand s)))) a x y sp p) :
    ∃ t, exec i s = .next t ∧ SameSystem s t ∧ Regs t a x y sp p := by
  obtain ⟨t, ht, hregs, hsystem⟩ := exec_plain_regs hi hr hind hcpu hregs
  exact ⟨t, ht, hsystem, hregs⟩

/-- One flag other than U written between the two forcings of U (R143). -/
theorem flag_forced_putBit (p : Byte) {k : Nat} (hk : k < 8) (hku : k ≠ bitU) (on : Bool) (j : Nat) :
    flag (putBit (putBit (putBit p bitU true) k on) bitU true) j
      = if j = k then on else if j = bitU then true else flag p j := by
  have hu : bitU < 8 := by decide
  rw [flag_putBit _ _ _ _ hu, flag_putBit _ _ _ _ hk, flag_putBit _ _ _ _ hu]
  by_cases hj : j = bitU
  · rw [if_pos hj, if_neg (hj ▸ hku.symm), if_pos hj]
  · rw [if_neg hj, if_neg hj]

/-- An instruction whose action is one flag write: that flag and U change, and nothing else. -/
theorem exec_setFlag {i : Instr} {k : Nat} {on : Bool} (hi : i.WellFormed)
    (hr : operandReaders.contains i.op = false) (hind : i.operand.mode ≠ .ind) (hk : k < 8)
    (hku : k ≠ bitU) (haction : ∀ v, action i v = v.setFlag k on) (s : State) :
    ∃ t, exec i s = .next t ∧ SameSystem s t
      ∧ t.cpu.a = s.cpu.a ∧ t.cpu.x = s.cpu.x ∧ t.cpu.y = s.cpu.y ∧ t.cpu.sp = s.cpu.sp
      ∧ ∀ j, flag t.cpu.p j = if j = k then on else if j = bitU then true else flag s.cpu.p j := by
  obtain ⟨t, ht, hsystem, ha, hx, hy, hsp, hp⟩ := exec_registers (s := s)
    (p := putBit (putBit (putBit s.cpu.p bitU true) k on) bitU true) hi hr hind
    (fun v => by rw [haction]; rfl)
    (fun _ _ => by rw [haction]; exact ⟨rfl, rfl, rfl, rfl, rfl⟩)
  refine ⟨t, ht, hsystem, ha, hx, hy, hsp, fun j => ?_⟩
  rw [hp]
  exact flag_forced_putBit s.cpu.p hk hku on j

/-- Settles O34: the action of each is one flag write (`exec_setFlag`). -/
theorem flagOperations : Obligations.FlagOperations := by
  intro s
  simp only [List.forall_mem_cons]
  refine ⟨?_, ?_, ?_, ?_, ?_, ?_, ?_, fun _ h => nomatch h⟩
  all_goals exact exec_setFlag rfl rfl (by decide) (by decide) (by decide) (fun _ => rfl) s

/-- Settles O35: each copies a register within the CPU (`exec_registers`); all but TXS set Z and N between
the two forcings of U (`forced_setZN`). -/
theorem registerTransfers : Obligations.RegisterTransfers := fun s =>
  have hp := forced_setZN s.cpu.p
  ⟨exec_registers rfl rfl (by decide) (fun _ => rfl) fun _ _ => ⟨rfl, rfl, rfl, rfl, hp _⟩,
    exec_registers rfl rfl (by decide) (fun _ => rfl) fun _ _ => ⟨rfl, rfl, rfl, rfl, hp _⟩,
    exec_registers rfl rfl (by decide) (fun _ => rfl) fun _ _ => ⟨rfl, rfl, rfl, rfl, hp _⟩,
    exec_registers rfl rfl (by decide) (fun _ => rfl) fun _ _ => ⟨rfl, rfl, rfl, rfl, hp _⟩,
    exec_registers rfl rfl (by decide) (fun _ => rfl) fun _ _ =>
      ⟨rfl, rfl, rfl, rfl, forced_status s.cpu.p⟩,
    exec_registers rfl rfl (by decide) (fun _ => rfl) fun _ _ => ⟨rfl, rfl, rfl, rfl, hp _⟩⟩

/-! ### Stack instructions -/

/-- The copy of P that PHP pushes, after U is forced: B and U set (R261, R143). -/
theorem pushedByInstruction_forced_eq_or (p : Byte) :
    pushedByInstruction (putBit p bitU true) = p ||| 0x30 :=
  calc p ||| 0x20 ||| 0x10 ||| 0x20
      = p ||| (0x20 ||| (0x10 ||| 0x20)) := by rw [BitVec.or_assoc, BitVec.or_assoc]
    _ = p ||| 0x30 := rfl

/-- P that PHP leaves, between the two forcings of U: B clear and U set (R261, R143). -/
theorem forced_php_status (p : Byte) :
    putBit (putBit (putBit (putBit p bitU true) bitB false) bitU false) bitU true
      = p &&& 0xCF ||| 0x20 := by
  obtain ⟨n, v, u, b, d, i, z, c, rfl⟩ := exists_packP p
  rw [forced_rti_status, putBit_packP_5, packP_and_or, packP_and_or]

/-- P that PLP leaves from the byte it pops: U set, by PLP itself and by the last forcing (R263, R143). -/
theorem forced_plp_status (p : Byte) : putBit (putBit p bitU true) bitU true = p ||| 0x20 :=
  BitVec.or_assoc p 0x20 0x20

theorem action_pha (v : State) :
    action .pha v = (v.setRam (pushed1 v v.cpu.a)).withCpu { v.cpu with sp := v.cpu.sp - 1 } := by
  rw [action, push_eq]; rfl

theorem action_php (v : State) :
    action .php v
      = (v.setRam (pushed1 v (pushedByInstruction v.cpu.p))).withCpu
          { v.cpu with
            sp := v.cpu.sp - 1
            p := putBit (putBit v.cpu.p bitB false) bitU false } := by
  rw [action, push_eq]; rfl

theorem action_pla (v : State) :
    action .pla v
      = v.withCpu
          { v.cpu with
            a := stackByte v 1
            sp := v.cpu.sp + 1
            p := setZN v.cpu.p (stackByte v 1) } := by
  rw [action, pop_eq]; rfl

theorem action_plp (v : State) :
    action .plp v
      = v.withCpu { v.cpu with sp := v.cpu.sp + 1, p := putBit (stackByte v 1) bitU true } := by
  rw [action, pop_eq]; rfl

/-- Settles O33: the pushes of `action_pha` and `action_php` and the pops of `action_pla` and `action_plp`,
each with its status byte between the forcings of U. -/
theorem stackInstructions : Obligations.StackInstructions := by
  intro s
  refine ⟨?pha, ?php, ?pla, ?plp⟩
  case pha =>
    obtain ⟨op, extra, ht⟩ := exec_of_not_reader (i := .pha) rfl rfl s
    rw [action_pha] at ht
    exact ⟨_, ht, ⟨rfl, rfl, rfl, rfl, forced_status s.cpu.p⟩, sameSystem_withCpu _ _⟩
  case php =>
    obtain ⟨op, extra, ht⟩ := exec_of_not_reader (i := .php) rfl rfl s
    rw [action_php] at ht
    refine ⟨_, ht, ⟨rfl, rfl, rfl, rfl, forced_php_status s.cpu.p⟩, ?_⟩
    rw [← pushedByInstruction_forced_eq_or]
    exact sameSystem_withCpu _ _
  case pla =>
    obtain ⟨op, extra, ht⟩ := exec_of_not_reader (i := .pla) rfl rfl s
    rw [action_pla] at ht
    exact ⟨_, ht, ⟨rfl, rfl, rfl, rfl, forced_setZN s.cpu.p _⟩, sameSystem_withCpu _ _⟩
  case plp =>
    obtain ⟨op, extra, ht⟩ := exec_of_not_reader (i := .plp) rfl rfl s
    rw [action_plp] at ht
    exact ⟨_, ht, ⟨rfl, rfl, rfl, rfl, forced_plp_status _⟩, sameSystem_withCpu _ _⟩

end Sys2Proof.Machine

namespace Sys2Proof.Machine

open Sys2Proof

/-!
PROOFS of the statements on 60_exceptions.md. Taking an interrupt is the pushes, a read of the vector and one
update of the CPU (`takeInterrupt_eq_withCpu`). A write of a port is one update of the PPU, with `t` and `v` as
numbers. A PPU clock is its rendering, then vertical blank and the request, the output and the counters
(`ppuTick_frame`): what it never changes is `Ppu.kept`, what it renders is `Ppu.picture`, which is `v`, the
fetch latches and the shifters. A frame is a run of such clocks, whose position counts them
(`position_run`).
-/

/-! ### Interrupts -/

theorem memRead16_withCpu (a : Word) (s : State) (c : Cpu) :
    memRead16 a (s.withCpu c) = ((memRead16 a s).1, (memRead16 a s).2.withCpu c) :=
  readPointer_withCpu a (a + 1) s c

/-- The copy of P that irq() and nmi() push: B = 0, U = 1 (R302, R303). -/
theorem pushedByInterrupt_eq (p : Byte) :
    pushedByInterrupt p
      = packP (flag p bitN) (flag p bitV) true false (flag p bitD) (flag p bitI) (flag p bitZ)
          (flag p bitC) := by
  obtain ⟨n, v, u, b, d, i, z, c, rfl⟩ := exists_packP p
  simp [pushedByInterrupt]

/-- The machine after the three pushes of irq() and nmi(), its CPU aside. -/
def interruptPushed (s : State) : State :=
  s.setRam (pushed3 s (hiByte s.cpu.pc) (loByte s.cpu.pc) (pushedByInterrupt s.cpu.p))

/-- irq() and nmi(): the pushes, a read of the vector, and one update of the CPU (R302, R303). -/
theorem takeInterrupt_eq_withCpu (vector : Word) (s : State) :
    takeInterrupt (pushedByInterrupt s.cpu.p) (pushedByInterrupt s.cpu.p) vector s
      = (memRead16 vector (interruptPushed s)).2.withCpu
          { s.cpu with
            sp := s.cpu.sp - 3, p := putBit (pushedByInterrupt s.cpu.p) bitI true
            pc := (memRead16 vector (interruptPushed s)).1 } := by
  have hread := memRead16_withCpu vector (interruptPushed s)
    { s.cpu with sp := s.cpu.sp - 3, p := putBit (pushedByInterrupt s.cpu.p) bitI true }
  rw [takeInterrupt_eq]
  exact congrArg (fun r : Word × State => r.2.setPc r.1) hread

/-- What irq() and nmi() share, through any vector and at any cost. -/
theorem interrupt_entry (vector : Word) (n : Nat) {s t : State}
    (ht : t = (takeInterrupt (pushedByInterrupt s.cpu.p) (pushedByInterrupt s.cpu.p) vector
      s).setCycles n) :
    t.cpu.pc = (memRead16 vector (interruptPushed s)).1 ∧ t.cpu.cycles = n
      ∧ Regs t s.cpu.a s.cpu.x s.cpu.y (s.cpu.sp - 3)
          (packP (flag s.cpu.p bitN) (flag s.cpu.p bitV) true false (flag s.cpu.p bitD) true
            (flag s.cpu.p bitZ) (flag s.cpu.p bitC))
      ∧ SameSystem (memRead16 vector (interruptPushed s)).2 t ∧ SameLatches s t := by
  rw [takeInterrupt_eq_withCpu] at ht
  subst ht
  refine ⟨rfl, rfl, ⟨rfl, rfl, rfl, rfl, ?_⟩, sameSystem_withCpu _ _, rfl, rfl, rfl, rfl⟩
  show putBit (pushedByInterrupt s.cpu.p) bitI true = _
  rw [pushedByInterrupt_eq, putBit_packP_2]

/-- The vector at 0xFFFE lies where the pushes do not reach, and reading it changes nothing (R84). -/
theorem memRead16_irqVector (s : State) :
    memRead16 0xFFFE (interruptPushed s) = (peek16 s 0xFFFE, interruptPushed s) := by
  rw [memRead16_high _ 0xFFFE (by decide) (by decide),
    peek16_congr (t := interruptPushed s) (s := s) (by decide) (by decide) rfl]

/-- Settles O37: with I = 0 it is `interrupt_entry` through the vector at 0xFFFE, with 7 cycles. -/
theorem irqEntry : Obligations.IrqEntry := by
  intro s
  refine ⟨fun hI => if_pos hI, fun hI => ?_⟩
  have hentry := interrupt_entry 0xFFFE 7 (t := irq s) (if_neg (by rw [hI]; exact Bool.false_ne_true))
  rw [memRead16_irqVector, interruptPushed, pushedByInterrupt_eq, hI] at hentry
  exact hentry

/-- Settles O38: `interrupt_entry` through the vector parameter, with 8 cycles. -/
theorem nmiEntry : Obligations.NmiEntry := by
  intro s pushed
  have hpushed : interruptPushed s = pushed := by rw [interruptPushed, pushedByInterrupt_eq]
  rw [← hpushed]
  obtain ⟨hpc, hcycles, hregs, hsystem, hlatches⟩ :=
    interrupt_entry s.params.nmiVector 8 (s := s) (t := nmi s) rfl
  refine ⟨hpc, hcycles, hregs, hsystem, hlatches, fun hdefault => ?_⟩
  have hvector : s.params.nmiVector = 0xFFFE := by rw [hdefault]; rfl
  rw [hvector, memRead16_irqVector] at hpc hsystem
  exact ⟨hpc, hsystem⟩

end Sys2Proof.Machine

namespace Sys2Proof.Machine

open Sys2Proof

/-! ### Reads of the ports -/

/-- The status byte while no sprite flag is set (R324, R49). -/
theorem statusByte_of_no_sprites {p : Ppu} (h : p.spriteOverflow = false ∧ p.spriteZeroHit = false) :
    statusByte p = (if p.verticalBlank then 0x80 else 0x00) ||| (p.ppuBus &&& 0x1F) := by
  obtain ⟨hoverflow, hzero⟩ := h
  rw [statusByte, hoverflow, hzero]
  generalize p.verticalBlank = on, p.ppuBus = b
  revert on b; decide

/-- Settles O46: the status port by its byte; the others are quiet (`memRead_of_quiet_port`). -/
theorem statusPortReads : Obligations.StatusPortReads := by
  intro s hs
  have hquiet : ∀ a ∈ [(0x2000 : Word), 0x2001, 0x2003, 0x2004, 0x2005, 0x2006],
      inPpuWindow a = true ∧ a.toNat % 8 ≠ 2 ∧ a.toNat % 8 ≠ 7 := by
    simp [inPpuWindow]
  refine ⟨statusByte_of_no_sprites hs.ppu.noSprites, rfl, fun a ha => ?_⟩
  obtain ⟨hwindow, h2, h7⟩ := hquiet a ha
  exact memRead_of_quiet_port hwindow h2 h7 s

/-- `v` is in palette space (R328). -/
theorem inPaletteSpace_iff (v : BitVec 15) :
    ((v.setWidth 16 : Word) &&& 0x3FFF).toNat ≥ 0x3F00 ↔ v.toNat % 0x4000 ≥ 0x3F00 := by
  rw [toNat_and_ppuMask, BitVec.toNat_setWidth_of_le (by decide)]

/-- Settles O47: a read of 0x2007 is `dataRead`, with palette space as a number. -/
theorem dataPortReads : Obligations.DataPortReads := by
  intro s fresh
  have hbyte (ro : Bool) : (dataRead ro s).1
      = if s.ppu.v.toNat % 0x4000 ≥ 0x3F00 then fresh else s.ppu.dataBuffer := by
    cases ro <;> simp only [dataRead, decide_eq_true_eq, inPaletteSpace_iff, if_true] <;> rfl
  exact ⟨Prod.ext (hbyte false) rfl, Prod.ext (hbyte true) rfl⟩

end Sys2Proof.Machine

namespace Sys2Proof.Machine

open Sys2Proof

/-! ### `v` and `t` as numbers (10_state.md R51) -/

section VramNumbers

variable (v : BitVec 15)

theorem toNat_coarseX : (coarseX v).toNat = v.toNat % 32 := by
  simp [coarseX]

theorem toNat_coarseY : (coarseY v).toNat = v.toNat / 32 % 32 := by
  simp [coarseY, Nat.shiftRight_eq_div_pow]

theorem toNat_fineY : (fineY v).toNat = v.toNat / 4096 := by
  have := v.isLt
  simp [fineY, Nat.shiftRight_eq_div_pow]
  omega

theorem toNat_nametableX : (nametableX v).toNat = v.toNat / 1024 % 2 :=
  Nat.toNat_testBit _ 10

theorem toNat_nametableY : (nametableY v).toNat = v.toNat / 2048 % 2 :=
  Nat.toNat_testBit _ 11

end VramNumbers

/-! ### Writes of the ports -/

theorem toNat_extractLsb'_fine (d : Byte) : (d.extractLsb' 0 3).toNat = d.toNat % 8 := by
  simp

theorem toNat_extractLsb'_coarse (d : Byte) : (d.extractLsb' 3 5).toNat = d.toNat / 8 := by
  have := d.isLt
  simp [Nat.shiftRight_eq_div_pow]
  omega

/-- `t` after the first write of 0x2005 (R325). -/
def scrollFirstT (d : Byte) (t : BitVec 15) : BitVec 15 :=
  vramAddr (fineY t) (nametableY t) (nametableX t) (coarseY t) (d.extractLsb' 3 5)

/-- `t` after the second write of 0x2005 (R325). -/
def scrollSecondT (d : Byte) (t : BitVec 15) : BitVec 15 :=
  vramAddr (d.extractLsb' 0 3) (nametableY t) (nametableX t) (d.extractLsb' 3 5) (coarseX t)

/-- `t` after the first write of 0x2006 (R326). -/
def addrFirstT (d : Byte) (t : BitVec 15) : BitVec 15 :=
  ((d &&& 0x3F).setWidth 15 <<< 8) ||| (t &&& 0x00FF)

/-- `t` after the second write of 0x2006 (R326). -/
def addrSecondT (d : Byte) (t : BitVec 15) : BitVec 15 := (t &&& 0x7F00) ||| d.setWidth 15

/-- `t` after a write of 0x2000 (R322). -/
def ctrlT (d : Byte) (t : BitVec 15) : BitVec 15 :=
  vramAddr (fineY t) (d.getLsbD 1) (d.getLsbD 0) (coarseY t) (coarseX t)

section PortNumbers

variable (d : Byte) (t : BitVec 15)

theorem toNat_scrollFirstT : (scrollFirstT d t).toNat = t.toNat / 32 * 32 + d.toNat / 8 := by
  rw [scrollFirstT, toNat_vramAddr, toNat_fineY, toNat_nametableY, toNat_nametableX, toNat_coarseY,
    toNat_extractLsb'_coarse]
  omega

theorem toNat_scrollSecondT :
    (scrollSecondT d t).toNat
      = (d.toNat % 8) * 4096 + (t.toNat / 1024 % 4) * 1024 + (d.toNat / 8) * 32 + t.toNat % 32 := by
  rw [scrollSecondT, toNat_vramAddr, toNat_nametableY, toNat_nametableX, toNat_coarseX,
    toNat_extractLsb'_coarse, toNat_extractLsb'_fine]
  omega

/-- The first write of 0x2006 puts six bits above the low byte, and 0 in bit 14. -/
theorem addrFirstT_eq_append :
    addrFirstT d t = ((d.extractLsb' 0 6).setWidth 7 ++ t.extractLsb' 0 8 : BitVec 15) := by
  apply BitVec.eq_of_getLsbD_eq
  intro i hi
  simp only [addrFirstT, BitVec.getLsbD_append]
  interval_cases i <;> simp

theorem toNat_addrFirstT : (addrFirstT d t).toNat = (d.toNat % 64) * 256 + t.toNat % 256 := by
  have hlow : (t.extractLsb' 0 8).toNat < 2 ^ 8 := (t.extractLsb' 0 8).isLt
  rw [addrFirstT_eq_append, BitVec.toNat_append, ← Nat.shiftLeft_add_eq_or_of_lt hlow]
  simp [Nat.shiftLeft_eq]
  omega

/-- The second write of 0x2006 replaces the low byte. -/
theorem addrSecondT_eq_append : addrSecondT d t = (t.extractLsb' 8 7 ++ d : BitVec 15) := by
  apply BitVec.eq_of_getLsbD_eq
  intro i hi
  simp only [addrSecondT, BitVec.getLsbD_append]
  interval_cases i <;> simp

theorem toNat_addrSecondT : (addrSecondT d t).toNat = t.toNat / 256 * 256 + d.toNat := by
  have := t.isLt
  rw [addrSecondT_eq_append, BitVec.toNat_append, ← Nat.shiftLeft_add_eq_or_of_lt d.isLt]
  simp [Nat.shiftLeft_eq, Nat.shiftRight_eq_div_pow]
  omega

theorem toNat_ctrlT :
    (ctrlT d t).toNat = t.toNat / 4096 * 4096 + (d.toNat % 4) * 1024 + t.toNat % 1024 := by
  have h1 : (d.getLsbD 1).toNat = d.toNat / 2 % 2 := Nat.toNat_testBit _ 1
  have h0 : (d.getLsbD 0).toNat = d.toNat % 2 :=
    (Nat.toNat_testBit _ 0).trans (by rw [pow_zero, Nat.div_one])
  rw [ctrlT, toNat_vramAddr, toNat_fineY, toNat_coarseY, toNat_coarseX, h0, h1]
  omega

end PortNumbers

section PortWrites

variable {s : State} (d : Byte)

theorem memWrite_scroll_first (hw : s.ppu.w = false) :
    memWrite 0x2005 d s
      = s.setPpu { s.ppu with
          ppuBus := d, w := true, t := scrollFirstT d s.ppu.t, fineX := d.extractLsb' 0 3 } :=
  congrArg s.setPpu (if_neg (Bool.eq_false_iff.mp hw))

theorem memWrite_scroll_second (hw : s.ppu.w = true) :
    memWrite 0x2005 d s
      = s.setPpu { s.ppu with ppuBus := d, w := false, t := scrollSecondT d s.ppu.t } :=
  congrArg s.setPpu (if_pos hw)

theorem memWrite_addr_first (hw : s.ppu.w = false) :
    memWrite 0x2006 d s
      = s.setPpu { s.ppu with ppuBus := d, w := true, t := addrFirstT d s.ppu.t } :=
  congrArg s.setPpu (if_neg (Bool.eq_false_iff.mp hw))

theorem memWrite_addr_second (hw : s.ppu.w = true) :
    memWrite 0x2006 d s
      = s.setPpu { s.ppu with
          ppuBus := d, w := false, t := addrSecondT d s.ppu.t, v := addrSecondT d s.ppu.t } :=
  congrArg s.setPpu (if_pos hw)

end PortWrites

/-- One write of 0x2005, with `w` either way (R325). -/
theorem memWrite_scroll (d : Byte) (s : State) :
    let r := memWrite 0x2005 d s
    let t := s.ppu.t.toNat
    r = s.setPpu { s.ppu with ppuBus := d, w := !s.ppu.w, t := r.ppu.t, fineX := r.ppu.fineX }
      ∧ (s.ppu.w = false →
        r.ppu.fineX.toNat = d.toNat % 8 ∧ r.ppu.t.toNat = t / 32 * 32 + d.toNat / 8)
      ∧ (s.ppu.w = true → r.ppu.fineX = s.ppu.fineX
        ∧ r.ppu.t.toNat
          = (d.toNat % 8) * 4096 + (t / 1024 % 4) * 1024 + (d.toNat / 8) * 32 + t % 32) := by
  cases hw : s.ppu.w with
  | false =>
    simp only [memWrite_scroll_first d hw]
    exact ⟨rfl, fun _ => ⟨toNat_extractLsb'_fine d, toNat_scrollFirstT d _⟩, nofun⟩
  | true =>
    simp only [memWrite_scroll_second d hw]
    exact ⟨rfl, nofun, fun _ => ⟨rfl, toNat_scrollSecondT d _⟩⟩

/-- One write of 0x2006, with `w` either way (R326). -/
theorem memWrite_addr (d : Byte) (s : State) :
    let r := memWrite 0x2006 d s
    let t := s.ppu.t.toNat
    r = s.setPpu { s.ppu with ppuBus := d, w := !s.ppu.w, t := r.ppu.t, v := r.ppu.v }
      ∧ (s.ppu.w = false → r.ppu.t.toNat = (d.toNat % 64) * 256 + t % 256 ∧ r.ppu.v = s.ppu.v)
      ∧ (s.ppu.w = true → r.ppu.t.toNat = t / 256 * 256 + d.toNat ∧ r.ppu.v = r.ppu.t) := by
  cases hw : s.ppu.w with
  | false =>
    simp only [memWrite_addr_first d hw]
    exact ⟨rfl, fun _ => ⟨toNat_addrFirstT d _, rfl⟩, nofun⟩
  | true =>
    simp only [memWrite_addr_second d hw]
    exact ⟨rfl, nofun, fun _ => ⟨toNat_addrSecondT d _, rfl⟩⟩

/-- Settles O50: each write is one update of the PPU, by what `w` it finds; the pairs are two of them, the
second with `w` set, and their `t` as numbers. -/
theorem controlScrollAndAddressWrites : Obligations.ControlScrollAndAddressWrites := by
  intro s h l t
  have hl := l.isLt
  have hh := h.isLt
  refine ⟨memWrite_scroll h s, memWrite_addr h s, fun hw => ?_, fun hw => ?_, fun hw => ?_, fun hw => ?_,
    rfl, toNat_ctrlT h _, rfl, ?_⟩
  · rw [memWrite_addr_first h hw, memWrite_addr_second l rfl]
    refine ⟨rfl, (toNat_addrSecondT l _).trans ?_⟩
    simp only [State.setPpu_ppu, toNat_addrFirstT]
    omega
  · rw [memWrite_scroll_first h hw, memWrite_scroll_second l rfl]
    refine ⟨rfl, toNat_extractLsb'_fine h, (toNat_scrollSecondT l _).trans ?_⟩
    simp only [State.setPpu_ppu, toNat_scrollFirstT]
    omega
  · rw [memWrite_scroll_first h hw, memWrite_addr_second l rfl]
    refine ⟨rfl, toNat_extractLsb'_fine h, (toNat_addrSecondT l _).trans ?_⟩
    simp only [State.setPpu_ppu, toNat_scrollFirstT]
    omega
  · rw [memWrite_addr_first h hw, memWrite_scroll_second l rfl]
    refine ⟨rfl, (toNat_scrollSecondT l _).trans ?_⟩
    simp only [State.setPpu_ppu, toNat_addrFirstT]
    omega
  · simp only [List.forall_mem_cons]
    exact ⟨rfl, rfl, rfl, nofun⟩

end Sys2Proof.Machine

namespace Sys2Proof.Machine

open Sys2Proof

/-! ### What rendering and a PPU clock leave -/

/-- `q` is `p` but for what rendering can change: vertical blank, `v`, the fetch latches and the shifters
(R340 to R350). -/
def Ppu.Rendered (p q : Ppu) : Prop :=
  q = { p with
    verticalBlank := q.verticalBlank, v := q.v
    bgNextTileId := q.bgNextTileId, bgNextTileAttrib := q.bgNextTileAttrib
    bgNextTileLsb := q.bgNextTileLsb, bgNextTileMsb := q.bgNextTileMsb
    bgShifterPatternLo := q.bgShifterPatternLo, bgShifterPatternHi := q.bgShifterPatternHi
    bgShifterAttribLo := q.bgShifterAttribLo, bgShifterAttribHi := q.bgShifterAttribHi }

/-- What no PPU clock changes: the registers the CPU writes, the read buffer and the memories (R340). -/
def Ppu.kept (p : Ppu) :
    Byte × Byte × Byte × BitVec 15 × BitVec 3 × Bool × Byte × Memory × Memory × Memory :=
  (p.ctrl, p.mask, p.ppuBus, p.t, p.fineX, p.w, p.dataBuffer, p.nt0, p.nt1, p.palette)

/-- The fetch latches: tile id, palette number, the two pattern bytes (R57). -/
def Ppu.latches (p : Ppu) : Byte × Byte × Byte × Byte :=
  (p.bgNextTileId, p.bgNextTileAttrib, p.bgNextTileLsb, p.bgNextTileMsb)

/-- The shifters: the two pattern planes, the two palette planes (R58). -/
def Ppu.shifters (p : Ppu) : Word × Word × Word × Word :=
  (p.bgShifterPatternLo, p.bgShifterPatternHi, p.bgShifterAttribLo, p.bgShifterAttribHi)

/-- What rendering works on: `v`, the fetch latches and the shifters. -/
def Ppu.picture (p : Ppu) :
    BitVec 15 × (Byte × Byte × Byte × Byte) × (Word × Word × Word × Word) :=
  (p.v, p.latches, p.shifters)

namespace Ppu.Rendered

variable {p q r : Ppu} (cart : Option Cartridge)

theorem trans (h : Rendered p q) (h' : Rendered q r) : Rendered p r := by
  rw [Rendered, h] at h'
  exact h'

theorem ite (c : Prop) [Decidable c] (h : Rendered p q) : Rendered p (if c then q else p) := by
  split
  · exact h
  · rfl

theorem updateShifters (p : Ppu) : Rendered p (updateShifters p) := by
  unfold Machine.updateShifters; exact ite _ rfl

theorem fetchPhase (phase : Nat) (p : Ppu) : Rendered p (fetchPhase cart phase p) := by
  unfold Machine.fetchPhase
  split_ifs
  · rfl
  · rfl
  · rfl
  · rfl
  · exact ite _ rfl
  · rfl

theorem endOfLineEvents (scanline : Int) (cycle : Nat) (p : Ppu) :
    Rendered p (endOfLineEvents cart scanline cycle p) := by
  have hscrollY (r : Ppu) : Rendered r (incrementScrollY r) := ite _ rfl
  have hcopyX (r : Ppu) : Rendered r (transferAddressX (loadBackgroundShifters r)) :=
    trans (q := loadBackgroundShifters r) rfl (ite _ rfl)
  have hcopyY (r : Ppu) : Rendered r (transferAddressY r) := ite _ rfl
  have htile (r : Ppu) : Rendered r (fetchTileId cart r) := rfl
  exact (((ite _ (hscrollY p)).trans (ite _ (hcopyX _))).trans (ite _ (htile _))).trans
    (ite _ (hcopyY _))

theorem kept (h : Rendered p q) : q.kept = p.kept := by
  rw [h]; rfl

theorem renderingEnabled (h : Rendered p q) : q.renderingEnabled = p.renderingEnabled := by
  rw [h]; rfl

/-- Rendering does not change what a PPU read returns. -/
theorem ppuRead (h : Rendered p q) (a : Word) : ppuRead cart q a = ppuRead cart p a := by
  rw [h]; rfl

end Ppu.Rendered

/-- The fetches of a line (R343): in the windows the shifters move, then the phase's step. -/
def windowFetch (cart : Option Cartridge) (cycle : Nat) (p : Ppu) : Ppu :=
  if inFetchWindow cycle then fetchPhase cart ((cycle - 1) % 8) (updateShifters p) else p

/-- The rendering of a PPU clock, on the lines that have any (R340). -/
def lineRendered (cart : Option Cartridge) (p : Ppu) : Ppu :=
  if -1 ≤ p.scanline ∧ p.scanline ≤ 239 then renderLine cart p.scanline p.cycle p else p

/-- A PPU clock up to its output and its counters (R340, R351). -/
def beforeOutput (cart : Option Cartridge) (p : Ppu) : Ppu :=
  if p.scanline = 241 ∧ p.cycle = 1 then vblankSet (lineRendered cart p) else lineRendered cart p

section Clock

variable (cart : Option Cartridge) (p : Ppu)

theorem renderLine_eq (scanline : Int) (cycle : Nat) :
    renderLine cart scanline cycle p
      = endOfLineEvents cart scanline cycle
          (windowFetch cart cycle (if scanline = -1 ∧ cycle = 1 then vblankClear p else p)) := rfl

theorem ppuTick_eq :
    ppuTick cart p
      = advanceCounters (emitPixel cart p.scanline p.cycle (beforeOutput cart p)) := rfl

theorem rendered_windowFetch (cycle : Nat) : p.Rendered (windowFetch cart cycle p) :=
  .ite _ ((Ppu.Rendered.updateShifters p).trans (.fetchPhase cart _ _))

theorem rendered_lineRendered : p.Rendered (lineRendered cart p) :=
  .ite _ (((Ppu.Rendered.ite (q := vblankClear p) (p.scanline = -1 ∧ p.cycle = 1) rfl).trans
    (rendered_windowFetch cart _ p.cycle)).trans (.endOfLineEvents cart p.scanline p.cycle _))

/-- The counters move alone (R354). -/
theorem advanceCounters_frame :
    advanceCounters p
      = { p with
          cycle := (advanceCounters p).cycle, scanline := (advanceCounters p).scanline
          frameCompleted := (advanceCounters p).frameCompleted } := by
  unfold advanceCounters
  split_ifs <;> rfl

/-- After its rendering a PPU clock sets vertical blank and the request, the output and the counters. -/
theorem ppuTick_frame :
    ppuTick cart p
      = { lineRendered cart p with
          verticalBlank := (ppuTick cart p).verticalBlank, nmiRequest := (ppuTick cart p).nmiRequest
          cycle := (ppuTick cart p).cycle, scanline := (ppuTick cart p).scanline
          frameCompleted := (ppuTick cart p).frameCompleted, pixel := (ppuTick cart p).pixel } := by
  rw [ppuTick_eq, advanceCounters_frame]
  unfold beforeOutput
  split <;> rfl

/-- On a line that renders, the picture after a PPU clock is that after its fetches and its end-of-line
events (R340). -/
theorem picture_of_onRenderLine (h : onRenderLine p = true) :
    (ppuTick cart p).picture
      = (endOfLineEvents cart p.scanline p.cycle (windowFetch cart p.cycle p)).picture := by
  have hline : lineRendered cart p = renderLine cart p.scanline p.cycle p :=
    if_pos (of_decide_eq_true h)
  rw [ppuTick_frame, hline, renderLine_eq]
  by_cases hclear : p.scanline = -1 ∧ p.cycle = 1
  · rw [if_pos hclear, hclear.1, hclear.2]; rfl
  · rw [if_neg hclear]; rfl

/-- On any other line a PPU clock leaves the picture (R340). -/
theorem picture_of_not_onRenderLine (h : ¬onRenderLine p = true) :
    (ppuTick cart p).picture = p.picture := by
  have hline : lineRendered cart p = p := if_neg (mt decide_eq_true h)
  rw [ppuTick_frame, hline]; rfl

theorem kept_ppuTick : (ppuTick cart p).kept = p.kept :=
  (congrArg Ppu.kept (ppuTick_frame cart p)).trans (rendered_lineRendered cart p).kept

/-! ### The counters, vertical blank and the request -/

/-- What the counters look at is what it was on entry. -/
theorem beforeOutput_counters :
    (beforeOutput cart p).cycle = p.cycle ∧ (beforeOutput cart p).scanline = p.scanline
      ∧ (beforeOutput cart p).frameCompleted = p.frameCompleted := by
  have hrendered : p.Rendered (lineRendered cart p) := rendered_lineRendered cart p
  unfold beforeOutput
  rw [hrendered]
  split <;> exact ⟨rfl, rfl, rfl⟩

/-- Within a line the cycle advances (R354). -/
theorem ppuTick_withinLine (h : p.cycle < 340) :
    (ppuTick cart p).cycle = p.cycle + 1 ∧ (ppuTick cart p).scanline = p.scanline
      ∧ (ppuTick cart p).frameCompleted = p.frameCompleted := by
  obtain ⟨hcycle, hline, hframe⟩ := beforeOutput_counters cart p
  rw [ppuTick_eq, advanceCounters, if_neg (by simp only [emitPixel, hcycle]; omega)]
  exact ⟨congrArg (· + 1) hcycle, hline, hframe⟩

/-- At the end of a line before the last the scanline advances (R354). -/
theorem ppuTick_endOfLine (h : p.cycle = 340) (hline : p.scanline < 260) :
    (ppuTick cart p).cycle = 0 ∧ (ppuTick cart p).scanline = p.scanline + 1
      ∧ (ppuTick cart p).frameCompleted = p.frameCompleted := by
  obtain ⟨hcycle, hscanline, hframe⟩ := beforeOutput_counters cart p
  rw [ppuTick_eq, advanceCounters, if_pos (by simp only [emitPixel, hcycle]; omega),
    if_neg (by simp only [emitPixel, hscanline]; omega)]
  exact ⟨rfl, congrArg (· + 1) hscanline, hframe⟩

/-- At the end of the last line the frame is completed (R354). -/
theorem ppuTick_endOfFrame (h : p.cycle = 340) (hline : p.scanline = 260) :
    (ppuTick cart p).cycle = 0 ∧ (ppuTick cart p).scanline = -1
      ∧ (ppuTick cart p).frameCompleted = true := by
  obtain ⟨hcycle, hscanline, -⟩ := beforeOutput_counters cart p
  rw [ppuTick_eq, advanceCounters, if_pos (by simp only [emitPixel, hcycle]; omega),
    if_pos (by simp only [emitPixel, hscanline]; omega)]
  exact ⟨rfl, rfl, rfl⟩

theorem windowFetch_verticalBlank (cycle : Nat) :
    (windowFetch cart cycle p).verticalBlank = p.verticalBlank := by
  have hshift (q : Ppu) : (updateShifters q).verticalBlank = q.verticalBlank := by
    unfold updateShifters; split <;> rfl
  have hphase (k : Nat) (q : Ppu) : (fetchPhase cart k q).verticalBlank = q.verticalBlank := by
    unfold fetchPhase incrementScrollX; split_ifs <;> rfl
  unfold windowFetch
  split
  · rw [hphase, hshift]
  · rfl

theorem endOfLineEvents_verticalBlank (scanline : Int) (cycle : Nat) :
    (endOfLineEvents cart scanline cycle p).verticalBlank = p.verticalBlank := by
  simp only [endOfLineEvents, incrementScrollY, transferAddressX, transferAddressY, fetchTileId,
    loadBackgroundShifters, apply_ite Ppu.verticalBlank, ite_self]

/-- Rendering clears vertical blank at (-1, 1) and changes it nowhere else (R342). -/
theorem lineRendered_verticalBlank :
    (lineRendered cart p).verticalBlank
      = if p.scanline = -1 ∧ p.cycle = 1 then false else p.verticalBlank := by
  unfold lineRendered
  split
  · rw [renderLine_eq, endOfLineEvents_verticalBlank, windowFetch_verticalBlank]
    split <;> rfl
  · rw [if_neg (by omega)]

theorem ppuTick_verticalBlank :
    (ppuTick cart p).verticalBlank
      = if p.scanline = 241 ∧ p.cycle = 1 then true
        else if p.scanline = -1 ∧ p.cycle = 1 then false else p.verticalBlank := by
  rw [ppuTick_eq, advanceCounters_frame, ← lineRendered_verticalBlank cart p]
  simp only [emitPixel, beforeOutput]
  split <;> rfl

/-- The request is raised at (241, 1) with NMI enabled, and no PPU clock clears it (R351). -/
theorem ppuTick_nmiRequest :
    (ppuTick cart p).nmiRequest
      = ((decide (p.scanline = 241 ∧ p.cycle = 1) && p.enableNmi) || p.nmiRequest) := by
  have hrendered : p.Rendered (lineRendered cart p) := rendered_lineRendered cart p
  rw [ppuTick_eq, advanceCounters_frame]
  simp only [emitPixel, beforeOutput]
  rw [hrendered]
  split
  · next h => rw [decide_eq_true h]; rfl
  · next h => rw [decide_eq_false h]; rfl

end Clock

/-- Settles O51: vertical blank and the request from the position (`ppuTick_verticalBlank`,
`ppuTick_nmiRequest`); the counters by the three places in a frame. -/
theorem verticalBlankAndCounters : Obligations.VerticalBlankAndCounters := by
  intro cart p hp q
  have hcycle := hp.cycle
  have hline := hp.scanline
  refine ⟨ppuTick_verticalBlank cart p, ppuTick_nmiRequest cart p, fun h => ?_, fun h => ?_, ?_⟩
  · obtain ⟨hc, hs, -⟩ := ppuTick_withinLine cart p h
    exact ⟨hc, hs⟩
  · by_cases hlast : p.scanline = 260
    · obtain ⟨hc, hs, -⟩ := ppuTick_endOfFrame cart p h hlast
      rw [if_pos hlast]
      exact ⟨hc, hs⟩
    · obtain ⟨hc, hs, -⟩ := ppuTick_endOfLine cart p h (by omega)
      rw [if_neg hlast]
      exact ⟨hc, hs⟩
  · by_cases h : p.cycle = 340
    · by_cases hlast : p.scanline = 260
      · rw [decide_eq_true ⟨h, hlast⟩]
        exact (ppuTick_endOfFrame cart p h hlast).2.2
      · rw [decide_eq_false (fun hend => hlast hend.2)]
        exact (ppuTick_endOfLine cart p h (by omega)).2.2
    · rw [decide_eq_false (fun hend => h hend.1)]
      exact (ppuTick_withinLine cart p (by omega)).2.2

/-! ### A frame -/

section Frame

variable {cart : Option Cartridge} {run : Nat → Ppu} (hnext : ∀ n, run (n + 1) = ppuTick cart (run n))

include hnext

theorem kept_run (n : Nat) : (run n).kept = (run 0).kept := by
  induction n with
  | zero => rfl
  | succ n ih => rw [hnext, kept_ppuTick, ih]

variable (hline : (run 0).scanline = -1) (hcycle : (run 0).cycle = 0)
  (hframe : (run 0).frameCompleted = false)

include hline hcycle hframe

/-- In the frame from (-1, 0) the position is the number of clocks made, and the frame is not completed
(R354, R357). -/
theorem position_run {n : Nat} (hn : n < 89342) :
    (run n).cycle = n % 341 ∧ (run n).scanline = (n / 341 : Nat) - 1
      ∧ (run n).frameCompleted = false := by
  induction n with
  | zero => exact ⟨hcycle, hline, hframe⟩
  | succ n ih =>
    obtain ⟨hc, hs, hf⟩ := ih (by omega)
    rw [hnext]
    by_cases hend : n % 341 = 340
    · obtain ⟨hc', hs', hf'⟩ := ppuTick_endOfLine cart (run n) (hc.trans hend) (by omega)
      exact ⟨by omega, by omega, hf'.trans hf⟩
    · obtain ⟨hc', hs', hf'⟩ := ppuTick_withinLine cart (run n) (by omega)
      exact ⟨by omega, by omega, hf'.trans hf⟩

/-- The clock from (260, 340) completes the frame (R354, R357). -/
theorem completed_run {m : Nat} (hm : m = 89342) :
    (run m).frameCompleted = true ∧ (run m).scanline = -1 ∧ (run m).cycle = 0 := by
  obtain ⟨n, rfl⟩ : ∃ n, m = n + 1 := ⟨m - 1, by omega⟩
  obtain ⟨hc, hs, -⟩ := position_run hnext hline hcycle hframe (n := n) (by omega)
  rw [hnext]
  obtain ⟨hc', hs', hf'⟩ := ppuTick_endOfFrame cart (run n) (by omega) (by omega)
  exact ⟨hf', hs', hc'⟩

/-- Of the frame's clocks the one after 82523, and no other, enters at (241, 1) (R357). -/
theorem entersVblank_iff {n : Nat} (hn : n < 89342) :
    (run n).scanline = 241 ∧ (run n).cycle = 1 ↔ n = 82523 := by
  obtain ⟨hc, hs, -⟩ := position_run hnext hline hcycle hframe hn
  omega

variable (hrequest : (run 0).nmiRequest = false)

include hrequest

/-- Until (241, 1) no clock of the frame raises a request (R351). -/
theorem nmiRequest_run {n : Nat} (hn : n ≤ 82523) : (run n).nmiRequest = false := by
  induction n with
  | zero => exact hrequest
  | succ n ih =>
    have hposition : ¬((run n).scanline = 241 ∧ (run n).cycle = 1) := by
      rw [entersVblank_iff hnext hline hcycle hframe (by omega)]; omega
    rw [hnext, ppuTick_nmiRequest, ih (by omega), decide_eq_false hposition]
    rfl

/-- The clock from (241, 1) sets vertical blank and raises the one request (R351, R357). -/
theorem vblank_run {n m : Nat} (hn : n = 82523) (hm : m = n + 1) :
    (run m).verticalBlank = true ∧ (run m).nmiRequest = (run 0).ctrl.getLsbD 7 := by
  have hposition := (entersVblank_iff hnext hline hcycle hframe (n := n) (by omega)).mpr hn
  have hquiet := nmiRequest_run hnext hline hcycle hframe hrequest (n := n) (by omega)
  have hctrl : (run n).ctrl = (run 0).ctrl := congrArg Prod.fst (kept_run hnext n)
  rw [hm, hnext]
  constructor
  · rw [ppuTick_verticalBlank, if_pos hposition]
  · rw [ppuTick_nmiRequest, decide_eq_true hposition, hquiet, Bool.true_and, Bool.or_false,
      Ppu.enableNmi, hctrl]

end Frame

/-- Settles O52: in a run of clocks the position counts the clocks (`position_run`), so the frame ends with
the clock from (260, 340), the 89342nd (`completed_run`), and is at (241, 1) once (`entersVblank_iff`). -/
theorem frameLaw : Obligations.FrameLaw := by
  intro cart p hline hcycle hframe hrequest at_
  have hnext (n : Nat) : at_ (n + 1) = ppuTick cart (at_ n) := Function.iterate_succ_apply' _ n p
  have hvblank {n : Nat} (hn : n < 89342) := entersVblank_iff hnext hline hcycle hframe hn
  obtain ⟨hcompleted, hfirstLine, hfirstCycle⟩ := completed_run hnext hline hcycle hframe rfl
  obtain ⟨hset, hraised⟩ := vblank_run hnext hline hcycle hframe hrequest rfl rfl
  obtain ⟨hvline, hvcycle⟩ := (hvblank (n := 82523) (by decide)).mpr rfl
  exact ⟨fun n hn => (position_run hnext hline hcycle hframe hn).2.2, hcompleted, hfirstLine,
    hfirstCycle, hvline, hvcycle, fun n hn => nmiRequest_run hnext hline hcycle hframe hrequest hn,
    hset, hraised, fun n hn hs hc => (hvblank hn).mp ⟨hs, hc⟩⟩

end Sys2Proof.Machine

namespace Sys2Proof.Machine

open Sys2Proof

/-! ### The NMI -/

theorem exists_cpuClock (s : State) : ∃ u, cpuClock s = .next u := by
  by_cases hc : s.cpu.cycles = 0
  · obtain ⟨t, ht, -⟩ := exec_completes (wellFormed_fetchInstr s) (fetchInstr s).2
    exact ⟨_, cpuClock_of_boundary hc ht⟩
  · exact ⟨_, cpuClock_of_busy hc⟩

/-- The CPU's part of a bus call: its clock, in its phase (R313). -/
def cpuPart (s : State) : Host.Outcome State Fault Refusal :=
  if cpuPhase s then cpuClock (ppuClock s) else .next (ppuClock s)

/-- A bus call's CPU part always completes, and neither raises nor clears the NMI request. -/
theorem exists_cpuPart (s : State) :
    ∃ u, cpuPart s = .next u ∧ u.ppu.nmiRequest = (ppuTick s.cart s.ppu).nmiRequest := by
  unfold cpuPart
  split
  · obtain ⟨u, hu⟩ := exists_cpuClock (ppuClock s)
    exact ⟨u, hu, (accesses_cpuClock hu).nmiRequest⟩
  · exact ⟨_, rfl, rfl⟩

theorem step_of_cpuPart {s u : State} (h : cpuPart s = .next u) : step s = .next (endBusCall u) := by
  have hphase : cpuPhase (ppuClock s) = cpuPhase s := rfl
  unfold cpuPart at h
  simp only [step, busClock, hphase, h]

/-- The end of a bus call with a request pending: nmi(), with the request cleared (R315). -/
theorem endBusCall_of_request {u : State} (h : u.ppu.nmiRequest = true) :
    endBusCall u = advanceSysClock (nmi (u.setPpu { u.ppu with nmiRequest := false })) := by
  rw [endBusCall, forwardNmi, if_pos h]

theorem endBusCall_of_no_request {u : State} (h : u.ppu.nmiRequest = false) :
    endBusCall u = advanceSysClock u := by
  rw [endBusCall, forwardNmi, if_neg (by rw [h]; exact Bool.false_ne_true)]

/-- No request outlives its bus call (R315). -/
theorem nmiRequest_endBusCall (u : State) : (endBusCall u).ppu.nmiRequest = false := by
  cases h : u.ppu.nmiRequest with
  | true => rw [endBusCall_of_request h]; exact (accesses_nmi _).nmiRequest
  | false => rw [endBusCall_of_no_request h]; exact h

/-- Settles O39: the request the CPU part leaves is the one the PPU's clock has raised
(`ppuTick_nmiRequest`), and the end of the bus call delivers it. -/
theorem nmiIsDeliveredInTheSameBusCall : Obligations.NmiIsDeliveredInTheSameBusCall := by
  intro s hs
  obtain ⟨u, hu, hrequest⟩ := exists_cpuPart s
  rw [ppuTick_nmiRequest, hs, Bool.or_false] at hrequest
  refine ⟨endBusCall u, step_of_cpuPart hu, nmiRequest_endBusCall u, fun hraised => ⟨u, hu, ?_⟩,
    fun hquiet => ⟨u, hu, ?_⟩⟩
  · refine endBusCall_of_request (hrequest.trans ?_)
    simp [hraised]
  · refine endBusCall_of_no_request (hrequest.trans ?_)
    simpa [and_assoc] using hquiet

end Sys2Proof.Machine

namespace Sys2Proof.Machine

open Sys2Proof

/-! ### Scrolling as numbers (R355) -/

section ScrollNumbers

variable (v t : BitVec 15)

theorem toNat_not (b : Bool) : (!b).toNat = 1 - b.toNat := by cases b <;> rfl

theorem coarseX_eq_iff (c : BitVec 5) : coarseX v = c ↔ v.toNat % 32 = c.toNat := by
  rw [← BitVec.toNat_inj, toNat_coarseX]

theorem coarseY_eq_iff (c : BitVec 5) : coarseY v = c ↔ v.toNat / 32 % 32 = c.toNat := by
  rw [← BitVec.toNat_inj, toNat_coarseY]

theorem toNat_scrolledX : (scrolledX v).toNat = scrollRight v.toNat := by
  have hv := v.isLt
  simp only [scrolledX, scrollRight, coarseX_eq_iff, apply_ite BitVec.toNat, toNat_vramAddr, toNat_fineY,
    toNat_nametableX, toNat_nametableY, toNat_coarseX, toNat_coarseY, toNat_not, BitVec.toNat_add,
    BitVec.reduceToNat]
  split <;> omega

theorem toNat_scrolledY : (scrolledY v).toNat = scrollDown v.toNat := by
  have hv := v.isLt
  simp only [scrolledY, scrollDown, coarseY_eq_iff, apply_ite BitVec.toNat, toNat_vramAddr, toNat_fineY,
    toNat_nametableX, toNat_nametableY, toNat_coarseX, toNat_coarseY, toNat_not, BitVec.toNat_add,
    BitVec.reduceToNat]
  split
  · omega
  · split
    · omega
    · split <;> omega

theorem toNat_transferredX : (transferredX v t).toNat = scrollCopyX v.toNat t.toNat := by
  have hv := v.isLt
  simp only [transferredX, scrollCopyX, toNat_vramAddr, toNat_fineY, toNat_nametableX, toNat_nametableY,
    toNat_coarseX, toNat_coarseY]
  omega

theorem toNat_transferredY : (transferredY v t).toNat = scrollCopyY v.toNat t.toNat := by
  have hv := v.isLt
  have ht := t.isLt
  simp only [transferredY, scrollCopyY, toNat_vramAddr, toNat_fineY, toNat_nametableX, toNat_nametableY,
    toNat_coarseX, toNat_coarseY]
  omega

end ScrollNumbers

/-! ### `v` over one clock -/

section ScrollClock

variable (cart : Option Cartridge) (p : Ppu)

theorem incrementScrollX_v :
    (incrementScrollX p).v = if p.renderingEnabled then scrolledX p.v else p.v := by
  unfold incrementScrollX; split <;> rfl

theorem incrementScrollY_v :
    (incrementScrollY p).v = if p.renderingEnabled then scrolledY p.v else p.v := by
  unfold incrementScrollY; split <;> rfl

theorem transferAddressX_v :
    (transferAddressX p).v = if p.renderingEnabled then transferredX p.v p.t else p.v := by
  unfold transferAddressX; split <;> rfl

theorem transferAddressY_v :
    (transferAddressY p).v = if p.renderingEnabled then transferredY p.v p.t else p.v := by
  unfold transferAddressY; split <;> rfl

theorem fetchPhase_v (phase : Nat) :
    (fetchPhase cart phase p).v = if phase = 7 then (incrementScrollX p).v else p.v := by
  by_cases h : phase = 7
  · subst h; rfl
  · unfold fetchPhase
    rw [if_neg h]
    split_ifs <;> rfl

theorem updateShifters_v : (updateShifters p).v = p.v := by
  unfold updateShifters; split <;> rfl

theorem windowFetch_v (cycle : Nat) :
    (windowFetch cart cycle p).v
      = if inFetchWindow cycle = true ∧ (cycle - 1) % 8 = 7 then (incrementScrollX p).v else p.v := by
  have hincrement : (incrementScrollX (updateShifters p)).v = (incrementScrollX p).v := by
    rw [incrementScrollX_v, incrementScrollX_v, updateShifters_v,
      (Ppu.Rendered.updateShifters p).renderingEnabled]
  unfold windowFetch
  by_cases hw : inFetchWindow cycle = true
  · rw [if_pos hw, fetchPhase_v, hincrement, updateShifters_v]
    simp only [hw, true_and]
  · rw [if_neg hw, if_neg (fun h => hw h.1)]

/-- The end-of-line events that move `v` have their own cycles (R350). -/
theorem endOfLineEvents_v (scanline : Int) (cycle : Nat) :
    (endOfLineEvents cart scanline cycle p).v
      = if cycle = 256 then (incrementScrollY p).v
        else if cycle = 257 then (transferAddressX p).v
        else if scanline = -1 ∧ 280 ≤ cycle ∧ cycle ≤ 304 then (transferAddressY p).v
        else p.v := by
  have htile (c : Prop) [Decidable c] (q : Ppu) : (if c then fetchTileId cart q else q).v = q.v := by
    split <;> rfl
  by_cases h256 : cycle = 256
  · subst h256
    simp only [endOfLineEvents, if_true]
    rw [if_neg (by omega), htile]
    rfl
  by_cases h257 : cycle = 257
  · subst h257
    simp only [endOfLineEvents, if_true]
    rw [if_neg (by omega), htile, transferAddressX_v, transferAddressX_v]
    rfl
  by_cases hpre : scanline = -1 ∧ 280 ≤ cycle ∧ cycle ≤ 304
  · have hno : ¬(cycle = 338 ∨ cycle = 340) := by omega
    simp only [endOfLineEvents, if_neg h256, if_neg h257, if_pos hpre, if_neg hno]
  · simp only [endOfLineEvents, if_neg h256, if_neg h257, if_neg hpre, htile]

theorem ppuTick_v_of_onRenderLine (h : onRenderLine p = true) :
    (ppuTick cart p).v
      = (endOfLineEvents cart p.scanline p.cycle (windowFetch cart p.cycle p)).v :=
  congrArg Prod.fst (picture_of_onRenderLine cart p h)

/-- With rendering disabled no PPU clock moves `v` (R355, R356). -/
theorem ppuTick_v_of_disabled (h : ¬p.renderingEnabled = true) : (ppuTick cart p).v = p.v := by
  by_cases hline : onRenderLine p = true
  · have hv : (windowFetch cart p.cycle p).v = p.v := by
      rw [windowFetch_v, incrementScrollX_v, if_neg h, ite_self]
    rw [ppuTick_v_of_onRenderLine cart p hline, endOfLineEvents_v, incrementScrollY_v, transferAddressX_v,
      transferAddressY_v, (rendered_windowFetch cart p p.cycle).renderingEnabled, if_neg h, if_neg h,
      if_neg h, ite_self, ite_self, ite_self, hv]
  · exact congrArg Prod.fst (picture_of_not_onRenderLine cart p hline)

/-- With rendering enabled, on a line that renders: the moves of `v` by cycle (R343, R350, R355). -/
theorem ppuTick_v_of_enabled (hline : onRenderLine p = true) (h : p.renderingEnabled = true) :
    (ppuTick cart p).v
      = if p.cycle = 256 then scrolledY (scrolledX p.v)
        else if p.cycle = 257 then transferredX p.v p.t
        else if p.cycle % 8 = 0 ∧ ((8 ≤ p.cycle ∧ p.cycle ≤ 248) ∨ (328 ≤ p.cycle ∧ p.cycle ≤ 336)) then
          scrolledX p.v
        else if p.scanline = -1 ∧ 280 ≤ p.cycle ∧ p.cycle ≤ 304 then transferredY p.v p.t
        else p.v := by
  have hfetch := rendered_windowFetch cart p p.cycle
  have ht : (windowFetch cart p.cycle p).t = p.t := congrArg (·.2.2.2.1) hfetch.kept
  have hv := windowFetch_v cart p p.cycle
  rw [incrementScrollX_v, if_pos h] at hv
  have hwindow : inFetchWindow p.cycle = true ↔
      (2 ≤ p.cycle ∧ p.cycle ≤ 257) ∨ (321 ≤ p.cycle ∧ p.cycle ≤ 337) := decide_eq_true_iff
  rw [ppuTick_v_of_onRenderLine cart p hline, endOfLineEvents_v, incrementScrollY_v, transferAddressX_v,
    transferAddressY_v, hfetch.renderingEnabled, if_pos h, if_pos h, if_pos h, ht]
  by_cases h256 : p.cycle = 256
  · rw [if_pos h256, if_pos h256, hv, if_pos (by rw [hwindow]; omega)]
  rw [if_neg h256, if_neg h256]
  by_cases h257 : p.cycle = 257
  · rw [if_pos h257, if_pos h257, hv, if_neg (by omega)]
  rw [if_neg h257, if_neg h257]
  by_cases htile : p.cycle % 8 = 0 ∧ ((8 ≤ p.cycle ∧ p.cycle ≤ 248) ∨ (328 ≤ p.cycle ∧ p.cycle ≤ 336))
  · rw [if_pos htile, if_neg (by omega), hv, if_pos (by rw [hwindow]; omega)]
  · have hkeep : (windowFetch cart p.cycle p).v = p.v := hv.trans (if_neg (by rw [hwindow]; omega))
    rw [if_neg htile, hkeep]

end ScrollClock

/-- Settles O54: with rendering disabled or off its lines `v` stays; else the moves by cycle
(`ppuTick_v_of_enabled`), each as a number. -/
theorem scrollUpdates : Obligations.ScrollUpdates := by
  intro cart p v t
  by_cases hline : onRenderLine p = true
  · by_cases h : p.renderingEnabled = true
    · rw [if_neg (not_not.mpr ⟨hline, h⟩), ppuTick_v_of_enabled cart p hline h]
      simp only [apply_ite BitVec.toNat, toNat_scrolledX, toNat_scrolledY, toNat_transferredX,
        toNat_transferredY, v, t]
    · rw [if_pos (fun hon => h hon.2), ppuTick_v_of_disabled cart p h]
  · rw [if_pos (fun hon => hline hon.1)]
    exact congrArg (·.1.toNat) (picture_of_not_onRenderLine cart p hline)

/-- Settles O56: no PPU clock changes what is `kept`, and with rendering disabled it does not move `v`. -/
theorem ppuClockFrame : Obligations.PpuClockFrame := by
  intro s t
  have hkept := kept_ppuTick s.cart s.ppu
  simp only [Ppu.kept, Prod.mk.injEq] at hkept
  obtain ⟨hctrl, hmask, hbus, ht, hfine, hw, hbuffer, hnt0, hnt1, hpalette⟩ := hkept
  refine ⟨rfl, rfl, rfl, rfl, rfl, hctrl, hmask, ht, hfine, hw, hbus, hbuffer, hnt0, hnt1, hpalette,
    fun hbackground hsprites => ppuTick_v_of_disabled s.cart s.ppu ?_⟩
  rw [Ppu.renderingEnabled, Ppu.renderBackground, Ppu.renderSprites, hbackground, hsprites]
  exact Bool.false_ne_true

end Sys2Proof.Machine

namespace Sys2Proof.Machine

open Sys2Proof

/-! ### The addresses of the fetches, as numbers -/

section FetchNumbers

variable (v : BitVec 15)

theorem tileIdAddr_eq : tileIdAddr v = BitVec.ofNat 16 (0x2000 + v.toNat % 4096) := by
  have happend : tileIdAddr v = (0x2#4 ++ v.extractLsb' 0 12 : BitVec 16) := by
    apply BitVec.eq_of_getLsbD_eq
    intro i hi
    simp only [tileIdAddr, BitVec.getLsbD_append]
    interval_cases i <;> simp
  have hlow : (v.extractLsb' 0 12).toNat < 2 ^ 12 := (v.extractLsb' 0 12).isLt
  apply BitVec.eq_of_toNat_eq
  rw [happend, BitVec.toNat_append, ← Nat.shiftLeft_add_eq_or_of_lt hlow]
  simp [Nat.shiftLeft_eq]
  omega

/-- The palette byte of a block of tiles lies in its name table's last 64 bytes (R347). -/
theorem attributeAddr_eq :
    attributeAddr v
      = BitVec.ofNat 16
          (0x23C0 + v.toNat / 1024 % 4 * 1024 + v.toNat / 128 % 8 * 8 + v.toNat / 4 % 8) := by
  have happend : attributeAddr v
      = (0x2#4 ++ v.extractLsb' 10 2 ++ 0xF#4 ++ v.extractLsb' 7 3 ++ v.extractLsb' 2 3 : BitVec 16) := by
    apply BitVec.eq_of_getLsbD_eq
    intro i hi
    simp only [attributeAddr, nametableX, nametableY, coarseX, coarseY, BitVec.getLsbD_append]
    interval_cases i <;> simp
  have h1 : (v.extractLsb' 2 3).toNat < 2 ^ 3 := (v.extractLsb' 2 3).isLt
  have h2 : (v.extractLsb' 7 3).toNat < 2 ^ 3 := (v.extractLsb' 7 3).isLt
  have h3 : (0xF#4).toNat < 2 ^ 4 := (0xF#4).isLt
  have h4 : (v.extractLsb' 10 2).toNat < 2 ^ 2 := (v.extractLsb' 10 2).isLt
  apply BitVec.eq_of_toNat_eq
  rw [happend]
  simp only [BitVec.toNat_append]
  rw [← Nat.shiftLeft_add_eq_or_of_lt h1, ← Nat.shiftLeft_add_eq_or_of_lt h2,
    ← Nat.shiftLeft_add_eq_or_of_lt h3, ← Nat.shiftLeft_add_eq_or_of_lt h4]
  simp [Nat.shiftLeft_eq, Nat.shiftRight_eq_div_pow]
  omega

/-- The row of a pattern-table tile (R348). -/
theorem patternAddr_eq (p : Ppu) :
    patternAddr p
      = BitVec.ofNat 16
          ((if p.ctrl.getLsbD 4 then 0x1000 else 0) + 16 * p.bgNextTileId.toNat + p.v.toNat / 4096) := by
  have hid := p.bgNextTileId.isLt
  apply BitVec.eq_of_toNat_eq
  rw [patternAddr, BitVec.toNat_add, BitVec.toNat_add, BitVec.toNat_shiftLeft, BitVec.toNat_shiftLeft,
    toNat_zext16, BitVec.toNat_setWidth, BitVec.toNat_setWidth, toNat_fineY, Ppu.patternBackground]
  cases p.ctrl.getLsbD 4 <;> simp [Nat.shiftLeft_eq] <;> omega

theorem patternAddr_add_eight (p : Ppu) :
    patternAddr p + 8
      = BitVec.ofNat 16
          ((if p.ctrl.getLsbD 4 then 0x1000 else 0) + 16 * p.bgNextTileId.toNat + p.v.toNat / 4096 + 8) := by
  rw [patternAddr_eq, BitVec.ofNat_add _ 8]; rfl

/-- Two bits of that byte, by the quadrant `v` points at (R347). -/
theorem toNat_fetchAttribute (cart : Option Cartridge) (p : Ppu) :
    (fetchAttribute cart p).bgNextTileAttrib.toNat
      = (ppuRead cart p (attributeAddr p.v)).toNat
          / 2 ^ (4 * (p.v.toNat / 64 % 2) + 2 * (p.v.toNat / 2 % 2)) % 4 := by
  have hmask (a : Byte) : (a &&& 0x03).toNat = a.toNat % 4 := by
    rw [BitVec.toNat_and]; exact Nat.and_two_pow_sub_one_eq_mod _ 2
  have hy : ((coarseY p.v).getLsbD 1).toNat = p.v.toNat / 64 % 2 := by
    rw [coarseY, BitVec.getLsbD_extractLsb']; exact Nat.toNat_testBit _ 6
  have hx : ((coarseX p.v).getLsbD 1).toNat = p.v.toNat / 2 % 2 := by
    rw [coarseX, BitVec.getLsbD_extractLsb']; exact Nat.toNat_testBit _ 1
  rw [← hy, ← hx]
  simp only [fetchAttribute, hmask]
  generalize ppuRead cart p (attributeAddr p.v) = a
  cases (coarseY p.v).getLsbD 1 <;> cases (coarseX p.v).getLsbD 1 <;>
    simp [BitVec.toNat_ushiftRight, Nat.shiftRight_eq_div_pow]

end FetchNumbers

/-! ### The latches and the shifters over one clock -/

section FetchClock

variable (cart : Option Cartridge) (p : Ppu)

theorem latches_updateShifters : (updateShifters p).latches = p.latches := by
  unfold updateShifters; split <;> rfl

/-- What a fetch step loads does not depend on the shifters (R346 to R349). -/
theorem fetches_updateShifters :
    (fetchTileId cart (updateShifters p)).bgNextTileId = (fetchTileId cart p).bgNextTileId
      ∧ (fetchAttribute cart (updateShifters p)).bgNextTileAttrib = (fetchAttribute cart p).bgNextTileAttrib
      ∧ (fetchPatternLo cart (updateShifters p)).bgNextTileLsb = (fetchPatternLo cart p).bgNextTileLsb
      ∧ (fetchPatternHi cart (updateShifters p)).bgNextTileMsb = (fetchPatternHi cart p).bgNextTileMsb := by
  unfold updateShifters; split <;> exact ⟨rfl, rfl, rfl, rfl⟩

/-- The latches after the fetch step of a phase, where `at_ n` says that it is phase `n` (R340). -/
def latchesAfterFetch (cart : Option Cartridge) (p : Ppu) (at_ : Nat → Prop) [DecidablePred at_] :
    Byte × Byte × Byte × Byte :=
  (if at_ 0 then (fetchTileId cart p).bgNextTileId else p.bgNextTileId,
    if at_ 2 then (fetchAttribute cart p).bgNextTileAttrib else p.bgNextTileAttrib,
    if at_ 4 then (fetchPatternLo cart p).bgNextTileLsb else p.bgNextTileLsb,
    if at_ 6 then (fetchPatternHi cart p).bgNextTileMsb else p.bgNextTileMsb)

theorem latches_fetchPhase (phase : Nat) :
    (fetchPhase cart phase p).latches = latchesAfterFetch cart p (phase = ·) := by
  by_cases h0 : phase = 0
  · subst h0; rfl
  by_cases h2 : phase = 2
  · subst h2; rfl
  by_cases h4 : phase = 4
  · subst h4; rfl
  by_cases h6 : phase = 6
  · subst h6; rfl
  have hscroll : (incrementScrollX p).latches = p.latches := by
    unfold incrementScrollX; split <;> rfl
  simp only [fetchPhase, latchesAfterFetch, if_neg h0, if_neg h2, if_neg h4, if_neg h6,
    apply_ite Ppu.latches, hscroll, ite_self]
  rfl

/-- In a fetch window each phase loads its latch (R343). -/
theorem latches_windowFetch (cycle : Nat) :
    (windowFetch cart cycle p).latches
      = latchesAfterFetch cart p fun n => inFetchWindow cycle = true ∧ (cycle - 1) % 8 = n := by
  by_cases hw : inFetchWindow cycle = true
  · have hlatches := latches_updateShifters p
    simp only [Ppu.latches, Prod.mk.injEq] at hlatches
    simp only [windowFetch, hw, if_true, true_and, latches_fetchPhase, latchesAfterFetch,
      fetches_updateShifters, hlatches]
  · simp [windowFetch, latchesAfterFetch, hw, Ppu.latches]

/-- The end of a line loads the tile id, at cycles 338 and 340, and no other latch (R350). -/
theorem latches_endOfLineEvents (scanline : Int) (cycle : Nat) :
    (endOfLineEvents cart scanline cycle p).latches
      = if cycle = 338 ∨ cycle = 340 then (fetchTileId cart p).latches else p.latches := by
  have hscrollY (q : Ppu) : (incrementScrollY q).latches = q.latches := by
    unfold incrementScrollY; split <;> rfl
  have hcopyX (q : Ppu) : (transferAddressX (loadBackgroundShifters q)).latches = q.latches := by
    unfold transferAddressX; split <;> rfl
  have hcopyY (q : Ppu) : (transferAddressY q).latches = q.latches := by
    unfold transferAddressY; split <;> rfl
  by_cases htile : cycle = 338 ∨ cycle = 340
  · have h256 : ¬cycle = 256 := by omega
    have h257 : ¬cycle = 257 := by omega
    simp only [endOfLineEvents, if_neg h256, if_neg h257, if_pos htile, apply_ite Ppu.latches, hcopyY,
      ite_self]
  · simp only [endOfLineEvents, if_neg htile, apply_ite Ppu.latches, hscrollY, hcopyX, hcopyY, ite_self]

/-- A shifter after the shift of a fetch window (R345). -/
def shiftedIn (p : Ppu) (cycle : Nat) (w : Word) : Word :=
  if inFetchWindow cycle = true ∧ p.renderBackground = true then w <<< 1 else w

/-- A shifter after the shift and the reload of a fetch window (R344). -/
def reloadedIn (p : Ppu) (cycle : Nat) (w : Word) (b : Byte) : Word :=
  if inFetchWindow cycle = true ∧ (cycle - 1) % 8 = 0 then reload (shiftedIn p cycle w) b
  else shiftedIn p cycle w

theorem shifters_updateShifters {cycle : Nat} (hw : inFetchWindow cycle = true) :
    (updateShifters p).shifters
      = (shiftedIn p cycle p.bgShifterPatternLo, shiftedIn p cycle p.bgShifterPatternHi,
        shiftedIn p cycle p.bgShifterAttribLo, shiftedIn p cycle p.bgShifterAttribHi) := by
  unfold updateShifters
  split
  · next h => simp only [shiftedIn, hw, h, and_self, if_true]; rfl
  · next h => simp only [shiftedIn, h, Bool.false_eq_true, and_false, if_false]; rfl

/-- Only phase 0 reloads the shifters (R340). -/
theorem shifters_fetchPhase {phase : Nat} (h : phase ≠ 0) :
    (fetchPhase cart phase p).shifters = p.shifters := by
  unfold fetchPhase incrementScrollX
  rw [if_neg h]
  split_ifs <;> rfl

theorem shifters_windowFetch (cycle : Nat) :
    (windowFetch cart cycle p).shifters
      = (reloadedIn p cycle p.bgShifterPatternLo p.bgNextTileLsb,
        reloadedIn p cycle p.bgShifterPatternHi p.bgNextTileMsb,
        reloadedIn p cycle p.bgShifterAttribLo (if p.bgNextTileAttrib.getLsbD 0 then 0xFF else 0x00),
        reloadedIn p cycle p.bgShifterAttribHi (if p.bgNextTileAttrib.getLsbD 1 then 0xFF else 0x00)) := by
  by_cases hw : inFetchWindow cycle = true
  · have hshift := shifters_updateShifters p hw
    have hlatches := latches_updateShifters p
    rw [windowFetch, if_pos hw]
    by_cases h0 : (cycle - 1) % 8 = 0
    · simp only [Ppu.shifters, Ppu.latches, Prod.mk.injEq] at hshift hlatches
      rw [h0]
      show (loadBackgroundShifters (updateShifters p)).shifters = _
      simp only [Ppu.shifters, loadBackgroundShifters, hshift, hlatches, reloadedIn, hw, h0, and_self,
        if_true]
    · rw [shifters_fetchPhase cart _ h0, hshift]
      simp only [reloadedIn, h0, and_false, if_false]
  · simp [windowFetch, reloadedIn, shiftedIn, hw, Ppu.shifters]

/-- A second reload with the same byte changes nothing (R344). -/
theorem reload_reload (w : Word) (b : Byte) : reload (reload w b) b = reload w b := by
  apply BitVec.eq_of_getLsbD_eq
  intro i hi
  simp only [reload, zext16]
  interval_cases i <;> simp

theorem shifters_load_load :
    (loadBackgroundShifters (loadBackgroundShifters p)).shifters = (loadBackgroundShifters p).shifters :=
  Prod.ext (reload_reload _ _) (Prod.ext (reload_reload _ _)
    (Prod.ext (reload_reload _ _) (reload_reload _ _)))

/-- The reload at cycle 257 repeats the one of that cycle's phase, so the end of a line leaves the shifters
as its fetches do (R350). -/
theorem shifters_endOfLineEvents (scanline : Int) (cycle : Nat) :
    (endOfLineEvents cart scanline cycle (windowFetch cart cycle p)).shifters
      = (windowFetch cart cycle p).shifters := by
  have hscrollY (q : Ppu) : (incrementScrollY q).shifters = q.shifters := by
    unfold incrementScrollY; split <;> rfl
  have hcopyX (q : Ppu) : (transferAddressX q).shifters = q.shifters := by
    unfold transferAddressX; split <;> rfl
  have hcopyY (q : Ppu) : (transferAddressY q).shifters = q.shifters := by
    unfold transferAddressY; split <;> rfl
  have htile (q : Ppu) : (fetchTileId cart q).shifters = q.shifters := rfl
  by_cases h257 : cycle = 257
  · have hfetch : windowFetch cart cycle p
        = fetchTileId cart (loadBackgroundShifters (updateShifters p)) := by
      subst h257; rfl
    have h256 : ¬cycle = 256 := by omega
    simp only [endOfLineEvents, hfetch, if_neg h256, if_pos h257, apply_ite Ppu.shifters, hcopyX, hcopyY,
      htile, ite_self]
    exact shifters_load_load (updateShifters p)
  · simp only [endOfLineEvents, if_neg h257, apply_ite Ppu.shifters, hscrollY, hcopyY, htile, ite_self]

/-- The latches after a PPU clock on a line that renders: those of the phase, and the tile id at cycles 338
and 340, which lie in no fetch window (R343, R350). -/
theorem latches_of_onRenderLine (h : onRenderLine p = true) :
    (ppuTick cart p).latches
      = latchesAfterFetch cart p fun n =>
          (inFetchWindow p.cycle = true ∧ (p.cycle - 1) % 8 = n)
            ∨ (n = 0 ∧ (p.cycle = 338 ∨ p.cycle = 340)) := by
  have hlatches := congrArg (·.2.1) (picture_of_onRenderLine cart p h)
  refine hlatches.trans ((latches_endOfLineEvents cart _ _ _).trans ?_)
  by_cases htile : p.cycle = 338 ∨ p.cycle = 340
  · have hw : ¬inFetchWindow p.cycle = true := by rw [inFetchWindow, decide_eq_true_eq]; omega
    rw [if_pos htile, windowFetch, if_neg hw]
    simp [latchesAfterFetch, hw, htile, Ppu.latches, fetchTileId]
  · rw [if_neg htile, latches_windowFetch]
    simp only [latchesAfterFetch, htile, and_false, or_false]

end FetchClock

/-- Settles O55: off the lines that render the picture stays; on them the latches and the shifters are those
of the fetches and the end of the line, at the addresses as numbers. -/
theorem backgroundFetches : Obligations.BackgroundFetches := by
  intro cart p q v phase row shifted reloaded
  by_cases hline : onRenderLine p = true
  · have hlatches := latches_of_onRenderLine cart p hline
    have hshifters := (congrArg (·.2.2) (picture_of_onRenderLine cart p hline)).trans
      ((shifters_endOfLineEvents cart p _ _).trans (shifters_windowFetch cart p p.cycle))
    simp only [Ppu.picture, Ppu.latches, Ppu.shifters, latchesAfterFetch, Prod.mk.injEq, true_and,
      OfNat.ofNat_ne_zero, false_and, or_false] at hlatches hshifters
    obtain ⟨hid, hattrib, hlsb, hmsb⟩ := hlatches
    obtain ⟨hplo, hphi, halo, hahi⟩ := hshifters
    simp only [phase, reloaded, shifted, hline, true_and, ← tileIdAddr_eq, ← attributeAddr_eq, row,
      ← patternAddr_eq, ← patternAddr_add_eight, v]
    refine ⟨?_, ?_, ?_, ?_, hplo, hphi, halo, hahi⟩
    · exact (congrArg BitVec.toNat hid).trans (apply_ite BitVec.toNat _ _ _)
    · rw [← toNat_fetchAttribute]
      exact (congrArg BitVec.toNat hattrib).trans (apply_ite BitVec.toNat _ _ _)
    · exact hlsb
    · exact hmsb
  · have hpicture := picture_of_not_onRenderLine cart p hline
    simp only [Ppu.picture, Ppu.latches, Ppu.shifters, Prod.mk.injEq] at hpicture
    obtain ⟨-, ⟨hid, hattrib, hlsb, hmsb⟩, hplo, hphi, halo, hahi⟩ := hpicture
    simp only [phase, reloaded, shifted, hline, Bool.false_eq_true, false_and, or_self, if_false]
    exact ⟨congrArg _ hid, congrArg _ hattrib, hlsb, hmsb, hplo, hphi, halo, hahi⟩

/-! ### The output -/

section Output

variable (cart : Option Cartridge) (p : Ppu)

/-- The colour depends on nothing that the output and the counters change. -/
theorem composeColour_ppuTick :
    composeColour cart (ppuTick cart p) = composeColour cart (beforeOutput cart p) := by
  rw [ppuTick_eq, advanceCounters_frame]; rfl

/-- A PPU clock hands over a pixel at the visible positions, of the colour its rendering leaves (R353). -/
theorem ppuTick_pixel :
    (ppuTick cart p).pixel
      = if 0 ≤ p.scanline ∧ p.scanline ≤ 239 ∧ 1 ≤ p.cycle ∧ p.cycle ≤ 256 then
          some { x := p.cycle - 1, y := p.scanline.toNat, colour := composeColour cart (ppuTick cart p) }
        else none := by
  rw [composeColour_ppuTick, ppuTick_eq, advanceCounters_frame]; rfl

/-- A PPU clock does not change what a PPU read returns. -/
theorem ppuRead_ppuTick (a : Word) : ppuRead cart (ppuTick cart p) a = ppuRead cart p a := by
  rw [ppuTick_frame]
  exact (rendered_lineRendered cart p).ppuRead cart a

/-- A 6-bit colour keeps what the mask leaves of a byte. -/
theorem toNat_setWidth_6 (b : Byte) : ((b &&& 0x3F).setWidth 6).toNat = (b &&& 0x3F).toNat := by
  revert b; decide

/-- With background rendering off the colour is palette entry 0 (R352). -/
theorem composeColour_of_off (h : p.renderBackground = false) :
    (composeColour cart p).toNat
      = (p.palette.read 0 &&& (if p.mask.getLsbD 0 then 0x30 else 0x3F)).toNat := by
  have hmask (b : Byte) (on : Bool) : ((b &&& (if on then 0x30 else 0x3F)) &&& 0x3F)
      = b &&& (if on then 0x30 else 0x3F) := by
    revert b on; decide
  have hread : ppuRead cart p 0x3F00
      = p.palette.read 0 &&& (if p.grayscale then 0x30 else 0x3F) :=
    ppuRead_of_palette (a := 0x3F00) rfl (by decide) cart p
  have hcolour : composeColour cart p = (ppuRead cart p 0x3F00 &&& 0x3F).setWidth 6 := by
    simp only [composeColour, h, Bool.false_eq_true, if_false]; rfl
  rw [hcolour, toNat_setWidth_6, hread, hmask]; rfl

/-- The bit `fine_x` from the left (R352). -/
theorem and_mux_ne_zero (w : Word) (fineX : BitVec 3) :
    (w &&& (0x8000 : Word) >>> fineX.toNat != 0) = w.getLsbD (15 - fineX.toNat) := by
  have hx := fineX.isLt
  have hmux : (0x8000 : Word) >>> fineX.toNat = BitVec.twoPow 16 (15 - fineX.toNat)
      ∧ BitVec.twoPow 16 (15 - fineX.toNat) ≠ 0 := by
    generalize fineX.toNat = n at hx
    interval_cases n <;> decide
  obtain ⟨hshift, hne⟩ := hmux
  rw [hshift, BitVec.and_twoPow]
  split
  · next h => rw [h, bne_iff_ne]; exact hne
  · next h => rw [Bool.eq_false_iff.mpr h]; rfl

/-- The palette entry of two palette bits and two pattern bits (R352). -/
theorem paletteAddr_eq (b3 b2 b1 b0 : Bool) :
    (0x3F00 : Word) + ((BitVec.ofBool b3 ++ BitVec.ofBool b2 : BitVec 2).setWidth 16 <<< 2)
        + (BitVec.ofBool b1 ++ BitVec.ofBool b0 : BitVec 2).setWidth 16
      = 0x3F00 + BitVec.ofNat 16 (8 * b3.toNat + 4 * b2.toNat + 2 * b1.toNat + b0.toNat) := by
  revert b3 b2 b1 b0; decide

/-- With background rendering on the shifters select the colour (R352). -/
theorem composeColour_of_on (h : p.renderBackground = true) :
    (composeColour cart p).toNat
      = (ppuRead cart p
          (0x3F00 + BitVec.ofNat 16
            (8 * (p.bgShifterAttribHi.getLsbD (15 - p.fineX.toNat)).toNat
              + 4 * (p.bgShifterAttribLo.getLsbD (15 - p.fineX.toNat)).toNat
              + 2 * (p.bgShifterPatternHi.getLsbD (15 - p.fineX.toNat)).toNat
              + (p.bgShifterPatternLo.getLsbD (15 - p.fineX.toNat)).toNat)) &&& 0x3F).toNat := by
  simp only [composeColour, h, if_true, shifterBits, and_mux_ne_zero, toNat_setWidth_6]
  exact congrArg (fun a => (ppuRead cart p a &&& 0x3F).toNat) (paletteAddr_eq _ _ _ _)

end Output

/-- Settles O53: the positions and the coordinates are those of `ppuTick_pixel`; the colour, by what the
mask says of the background, is one palette entry, read from memories no PPU clock changes. -/
theorem pixelOutput : Obligations.PixelOutput := by
  intro cart p t bit
  have hkept := kept_ppuTick cart p
  simp only [Ppu.kept, Prod.mk.injEq] at hkept
  obtain ⟨-, hmask, -, -, hfine, -, -, -, -, hpalette⟩ := hkept
  have hpixel := ppuTick_pixel cart p
  by_cases hvisible : 0 ≤ p.scanline ∧ p.scanline ≤ 239 ∧ 1 ≤ p.cycle ∧ p.cycle ≤ 256
  · rw [if_pos hvisible] at hpixel
    refine ⟨iff_of_true (by rw [hpixel]; exact Option.some_ne_none _) hvisible, fun q hq => ?_⟩
    obtain rfl := Option.some.inj (hpixel.symm.trans hq)
    refine ⟨by dsimp only; omega, by dsimp only; omega, fun hoff => ?_, fun hon => ?_⟩
    · rw [composeColour_of_off cart t ((congrArg (·.getLsbD 3) hmask).trans hoff), hpalette, hmask]
    · rw [composeColour_of_on cart t ((congrArg (·.getLsbD 3) hmask).trans hon), ppuRead_ppuTick, hfine]
  · rw [if_neg hvisible] at hpixel
    exact ⟨iff_of_false (not_not.mpr hpixel) hvisible, fun q hq => nomatch hpixel.symm.trans hq⟩

end Sys2Proof.Machine

namespace Sys2Proof.Machine

open Sys2Proof

/-!
PROOFS of the statements on 70_reset_and_hazards.md. A reset is one update of the CPU. The 24 bus calls after
boot count its 8 cycles down, one in three calls, while only the PPU and the system clock run on
(`countedDown`); the next call finds the CPU at an instruction boundary in its phase.
-/

/-! ### Reset -/

/-- Settles O40: the vector lies above the PPU's window, so that reading it changes nothing
(`memRead16_high`), and reset() updates the CPU alone (`cpuReset_frame`). -/
theorem resetLaw : Obligations.ResetLaw := by
  intro s
  constructor
  · simp only [cpuReset]
    rw [memRead16_high s resetVector (by decide) (by decide)]; rfl
  · rw [cpuReset_frame]
    exact sameSystem_withCpu s _

/-! ### The opcode latch -/

/-- The opcode byte of the fetched instruction is the byte a read of PC returns (R140). -/
theorem opcodeOf_fetchInstr (s : State) : opcodeOf (fetchInstr s).1 = some (peek s s.cpu.pc) := by
  rw [← memRead_fst]
  unfold fetchInstr
  dsimp only
  split <;> exact opcodeOf_instrOf _ _ _

/-- An instruction that runs latches its opcode byte (R39, R140). -/
theorem opcode_of_exec {i : Instr} {s t : State} (h : exec i s = .next t) :
    opcodeOf i = some t.cpu.opcode := by
  obtain ⟨op, v, extra, hop, -, hv, rfl⟩ := exec_next h
  have hlatch : (action i v).cpu.opcode = op := by rw [(action_latches i v).1, hv]; rfl
  rw [hop, ← hlatch]; rfl

/-! ### The countdown after a reset -/

section Countdown

variable {s : State}

/-- `s`, with the cycles of its reset to count down, after `n` bus calls (R400, R405). -/
def countedDown (s : State) (n : Nat) : State :=
  { s with
    cpu := { s.cpu with cycles := 8 - (n + 2) / 3 }
    ppu := (ppuTick s.cart)^[n] s.ppu
    sysClock := n }

theorem countedDown_zero (hclock : s.sysClock = 0) (hcycles : s.cpu.cycles = 8) :
    countedDown s 0 = s := by
  show ({ s with cpu := { s.cpu with cycles := 8 }, sysClock := 0 } : State) = s
  rw [← hclock, ← hcycles]

/-- The PPU's clock in bus call `n`. -/
theorem ppuClock_countedDown (n : Nat) :
    ppuClock (countedDown s n)
      = (countedDown s n).setPpu ((ppuTick s.cart)^[n + 1] s.ppu) := by
  rw [Function.iterate_succ_apply']; rfl

/-- In bus call `n`, before the 24th, the CPU counts down in its phase and rests out of it (R313). -/
theorem step_countedDown {n : Nat} (hn : n < 24)
    (hquiet : ((ppuTick s.cart)^[n + 1] s.ppu).nmiRequest = false) :
    step (countedDown s n) = .next (countedDown s (n + 1)) := by
  obtain ⟨hrest, hcount⟩ := stepWithoutFetch (countedDown s n)
  rw [ppuClock_countedDown] at hrest hcount
  have hcycles : (countedDown s n).cpu.cycles = 8 - (n + 2) / 3 := rfl
  by_cases hphase : n % 3 = 0
  · have hnext : 8 - (n + 2) / 3 - 1 = 8 - (n + 1 + 2) / 3 := by omega
    rw [hcount hphase (by omega), endBusCall_of_no_request hquiet]
    unfold countedDown
    rw [← hnext]; rfl
  · have hsame : 8 - (n + 2) / 3 = 8 - (n + 1 + 2) / 3 := by omega
    rw [hrest hphase, endBusCall_of_no_request hquiet]
    unfold countedDown
    rw [← hsame]; rfl

theorem busCalls_succ {t : State} (h : step s = .next t) (n : Nat) :
    busCalls (n + 1) s = busCalls n t := by
  simp only [busCalls, List.replicate_succ, runHost, hostOp, h]

/-- `n` bus calls from call `k` on reach call `k + n`, up to the 24th. -/
theorem busCalls_countedDown (hquiet : ∀ n ≤ 24, ((ppuTick s.cart)^[n] s.ppu).nmiRequest = false)
    {n k : Nat} (h : k + n ≤ 24) :
    busCalls n (countedDown s k) = .next (countedDown s (k + n)) := by
  induction n generalizing k with
  | zero => rfl
  | succ n ih =>
    rw [busCalls_succ (step_countedDown (by omega) (hquiet (k + 1) (by omega))), ih (by omega),
      Nat.add_right_comm, Nat.add_assoc]

end Countdown

/-- No request is raised in the first calls after power-on: the PPU starts the frame at (-1, 0) (R357). -/
theorem nmiRequest_powerOn (params : Params) (d : PowerOn) (cart : Option Cartridge) {n : Nat}
    (hn : n ≤ 24) : ((ppuTick cart)^[n] (powerOn params d).ppu).nmiRequest = false :=
  nmiRequest_run (run := fun n => (ppuTick cart)^[n] (powerOn params d).ppu)
    (fun n => Function.iterate_succ_apply' _ n _) rfl rfl rfl rfl (by omega)

/-- The launch state: the reset's registers, and the clock and the PPU of power-on (R403). -/
theorem launch_of_boot {params : Params} {d : PowerOn} {image chrDraw : List Byte} {s : State}
    (h : boot params d image chrDraw = .next s) :
    s.sysClock = 0 ∧ s.ppu = (powerOn params d).ppu ∧ s.cpu.cycles = 8
      ∧ s.cpu.pc = peek16 s 0xFFFC ∧ s.cpu.sp = 0xFD ∧ s.cpu.p = 0x20 := by
  obtain ⟨c, -, rfl⟩ := boot_next h
  obtain ⟨hcpu, hppu, -, hmem, -, hclock, -⟩ := resetLaw (installCartridge c (powerOn params d))
  obtain ⟨-, hinstalled, -⟩ := installCartridge_frame c (powerOn params d)
  refine ⟨hclock.trans hinstalled, hppu.trans (installCartridge_ppu c _), ?_, ?_, ?_, ?_⟩
  all_goals rw [hcpu]
  exact (peek16_congr (by decide) (by decide) hmem).symm

/-- Settles O41: from the launch state the bus calls count down (`busCalls_countedDown`); call 24 finds the
CPU in its phase at an instruction boundary (`exists_step_of_boundary`). -/
theorem firstOpcodeIsFetchedInBusCall24 : Obligations.FirstOpcodeIsFetchedInBusCall24 := by
  intro params draws image chrDraw s hboot
  obtain ⟨hclock, hppu, hcycles, hpc, hsp, hp⟩ := launch_of_boot hboot
  have hquiet (n : Nat) (hn : n ≤ 24) : ((ppuTick s.cart)^[n] s.ppu).nmiRequest = false := by
    rw [hppu]; exact nmiRequest_powerOn params draws s.cart hn
  have hcalls (n : Nat) (hn : n ≤ 24) : busCalls n s = .next (countedDown s n) := by
    have hrun := busCalls_countedDown hquiet (n := n) (k := 0) (by omega)
    rwa [countedDown_zero hclock hcycles, Nat.zero_add] at hrun
  have hphase : (countedDown s 24).sysClock % 3 = 0 := (rfl : 24 % 3 = 0)
  have hboundary : (countedDown s 24).cpu.cycles = 0 := (rfl : 8 - (24 + 2) / 3 = 0)
  obtain ⟨u, hexec, hstep⟩ := exists_step_of_boundary hphase hboundary
  refine ⟨fun n hn => ⟨_, hcalls n hn, rfl, rfl⟩, countedDown s 24, hcalls 24 le_rfl,
    beq_iff_eq.mpr hphase, beq_iff_eq.mpr hboundary, hpc, hsp, hp, u, hexec, hstep, hpc, ?_⟩
  have hlatch : some u.cpu.opcode = some (peek (ppuClock (countedDown s 24)) s.cpu.pc) :=
    (opcode_of_exec hexec).symm.trans (opcodeOf_fetchInstr _)
  rw [Option.some.inj hlatch, hpc]

end Sys2Proof.Machine
